-- ==== Sys2Proof/Word.lean ====
section
/-! DEFINITION. The words of the block: every value is an unsigned integer of a stated width
(`00_scope.md` R6). -/

namespace Sys2Proof

/-- A byte: 8 bits (R6), the unit of addressing of `BUF` (R40). -/
abbrev Byte := BitVec 8

/-- A 16-bit value: the width of `PLEN`, of four header fields and of the adder tree (R24, R121). -/
abbrev Half := BitVec 16

/-- A 32-bit value: an operand (`ARG_W`, R5), `RES` (R68), a sequence or acknowledgment number (R24). -/
abbrev Word := BitVec 32

/-- The fixed part of a command, 72 bits (R67). -/
abbrev CmdWord := BitVec 72

end Sys2Proof
end

