-- ==== Sys2Proof/Config.lean ====
section
/-! DEFINITION. The parameters of the block (`00_scope.md` R5): what is fixed when it is built, and the
fixed lengths its rules name. -/

namespace Sys2Proof

/-- What an implementation fixes when the block is built. `PAYLOAD_MAX` is the one OPEN parameter a rule
depends on (R5, D4): `0 <= PAYLOAD_MAX <= 65515`. A `State` carries it and no step writes it (R162), so a
statement about every state holds for every value of it (log entry 1). -/
structure Config where
  payloadMax : Fin 65516
deriving DecidableEq, Repr

/-- The default of R5: `PAYLOAD_MAX = 65515`. -/
def Config.default : Config := { payloadMax := 65515 }

/-- `HDR_LEN`, the header length in bytes (R5). -/
abbrev Config.hdrLen : Nat := 20

/-- `PROTO`, the protocol number in the pseudo-header (R5). -/
abbrev Config.proto : Byte := 6#8

/-- The largest `DLEN` a command record can have (R66). -/
abbrev Config.dataMax : Nat := 65535

/-- What an address the memory does not list reads as: `NEW` leaves every byte of `BUF` zero (R80), so
zero bytes are the ones not listed (log entry 6). -/
abbrev Config.unlistedByte : Byte := 0#8

end Sys2Proof
end

