-- ==== Sys2Proof/Syntax.lean ====
section
/-! DEFINITION. The 24 operations of the block (`30_encoding.md` R73), one constructor per row of
spec/opcode_table.json, each with the operands R70 gives it, at their widths; and the command record that
carries an operation (R66). -/

namespace Sys2Proof

/-- The operations (R73). `DATA` is an operand of the two operations of format D (R70). -/
inductive Instr where
  | new (payloadLen : Word)                  -- R80, format L
  | wrap (data : List Byte)                  -- R81, format D
  | discard                                  -- R83, format N
  | emit                                     -- R84, format N
  | status                                   -- R85, format N
  | getSrcPort                               -- R91, format N
  | getDstPort                               -- R92, format N
  | getSeq                                   -- R93, format N
  | getAck                                   -- R94, format N
  | getDataOffset                            -- R95, format N
  | getFlag                                  -- R96, format N
  | getWindow                                -- R97, format N
  | getChecksum                              -- R98, format N
  | setSrcPort (v : Half)                    -- R101, format H
  | setDstPort (v : Half)                    -- R102, format H
  | setSeq (v : Word)                        -- R103, format W
  | setAck (v : Word)                        -- R104, format W
  | setDataOffset (v : BitVec 4)             -- R105, format Q
  | setFlag (v : Byte)                       -- R106, format B
  | setWindow (v : Half)                     -- R107, format H
  | setChecksum (v : Half)                   -- R108, format H
  | setPayload (data : List Byte)            -- R109, format D
  | isCorrectChecksum (a0 a1 : Word)         -- R129, format A
  | csumCompute (a0 a1 : Word)               -- R130, format A
deriving DecidableEq, Repr

/-- A command record (R66): the 72-bit command word `{OP, ARG0, ARG1}` (R67), and `DATA` beside it.
`DLEN` is the number of bytes delivered, so it is `data.length`. -/
structure Command where
  word : CmdWord
  data : List Byte
deriving DecidableEq, Repr

end Sys2Proof
end

