-- ==== Sys2Proof/WellFormed.lean ====
section
/-! DEFINITION. Which terms of `Instr` a command record can carry. The operand widths are in the types, so
the one thing left to check is the length of `DATA` (`30_encoding.md` R66: `0 <= DLEN <= 65535`). -/

namespace Sys2Proof

/-- The length bound R66 puts on `DATA`. -/
abbrev DataFits (data : List Byte) : Prop := data.length ≤ Config.dataMax

/-- A well-formed instruction: its `DATA`, where it has one, is one a command record can carry (R66). -/
def WellFormed (i : Instr) : Bool :=
  match i with
  | .wrap data => DataFits data
  | .setPayload data => DataFits data
  | .new _ | .discard | .emit | .status => true
  | .getSrcPort | .getDstPort | .getSeq | .getAck => true
  | .getDataOffset | .getFlag | .getWindow | .getChecksum => true
  | .setSrcPort _ | .setDstPort _ | .setSeq _ | .setAck _ => true
  | .setDataOffset _ | .setFlag _ | .setWindow _ | .setChecksum _ => true
  | .isCorrectChecksum _ _ | .csumCompute _ _ => true

end Sys2Proof
end

