-- ==== Sys2Proof/Decode.lean ====
section
/-! DEFINITION. The decoder of command records and its encoder (`30_encoding.md` Part B). The decoder is
written from the operand formats of R70 and the opcode map of R73; the mask and match table of
spec/opcode_table.json stands beside it as data of its own, so that a statement can hold one against the
other (R72). -/

namespace Sys2Proof

/-- Why a command is not decoded. The last three are the ill-formed commands of R72, which raise
`IllegalCommand`; the first is no command record at all (R66). -/
inductive DecodeError where
  /-- `DLEN > 65535`: not a command record of R66. -/
  | oversizedData
  /-- `OP` is none of the 24 assigned opcodes (R72 (a), R75). -/
  | unassignedOpcode
  /-- A bit of `ARG0` or `ARG1` that R70 marks unused is not zero (R72 (b)). -/
  | unusedOperandBits
  /-- `DATA` on an operation whose format is not D (R72 (c)). -/
  | unexpectedData
deriving DecidableEq, Repr

/-! The fields of the command word (R67). -/

/-- `CW[71:64]`. -/
def Command.op (c : Command) : Byte := c.word.extractLsb' 64 8

/-- `CW[63:32]`. -/
def Command.arg0 (c : Command) : Word := c.word.extractLsb' 32 32

/-- `CW[31:0]`. -/
def Command.arg1 (c : Command) : Word := c.word.extractLsb' 0 32

/-! The operand formats of R70: each checks the unused operand bits and `DATA`, and hands the operand
on. -/

/-- What the formats share (R72 (b) and (c)): the unused operand bits are zero and there is no `DATA`. -/
def fixedForm (c : Command) (unusedZero : Bool) (i : Instr) : Except DecodeError Instr :=
  if unusedZero then
    if c.data = [] then .ok i else .error .unexpectedData
  else .error .unusedOperandBits

/-- Format N: no operand. -/
def formatN (c : Command) (i : Instr) : Except DecodeError Instr :=
  fixedForm c (c.arg0 = 0 ∧ c.arg1 = 0) i

/-- Formats L and W: `ARG0[31:0]`. -/
def formatW (c : Command) (i : Word → Instr) : Except DecodeError Instr :=
  fixedForm c (c.arg1 = 0) (i c.arg0)

/-- Format H: `ARG0[15:0]`; `ARG0[31:16]` unused. -/
def formatH (c : Command) (i : Half → Instr) : Except DecodeError Instr :=
  fixedForm c (c.arg0.extractLsb' 16 16 = 0 ∧ c.arg1 = 0) (i (c.arg0.extractLsb' 0 16))

/-- Format Q: `ARG0[3:0]`; `ARG0[31:4]` unused. -/
def formatQ (c : Command) (i : BitVec 4 → Instr) : Except DecodeError Instr :=
  fixedForm c (c.arg0.extractLsb' 4 28 = 0 ∧ c.arg1 = 0) (i (c.arg0.extractLsb' 0 4))

/-- Format B: `ARG0[7:0]`; `ARG0[31:8]` unused. -/
def formatB (c : Command) (i : Byte → Instr) : Except DecodeError Instr :=
  fixedForm c (c.arg0.extractLsb' 8 24 = 0 ∧ c.arg1 = 0) (i (c.arg0.extractLsb' 0 8))

/-- Format A: `ARG0[31:0]` and `ARG1[31:0]`. -/
def formatA (c : Command) (i : Word → Word → Instr) : Except DecodeError Instr :=
  fixedForm c true (i c.arg0 c.arg1)

/-- Format D: no operand in the word; `DATA` of any `DLEN`. -/
def formatD (c : Command) (i : List Byte → Instr) : Except DecodeError Instr :=
  if c.arg0 = 0 ∧ c.arg1 = 0 then .ok (i c.data) else .error .unusedOperandBits

/-- The opcode map (R73), an opcode not listed being unassigned (R75). -/
def decodeOp (c : Command) : Except DecodeError Instr :=
  if c.op = 0x01#8 then formatW c .new
  else if c.op = 0x02#8 then formatD c .wrap
  else if c.op = 0x03#8 then formatN c .discard
  else if c.op = 0x04#8 then formatN c .emit
  else if c.op = 0x05#8 then formatN c .status
  else if c.op = 0x10#8 then formatN c .getSrcPort
  else if c.op = 0x11#8 then formatN c .getDstPort
  else if c.op = 0x12#8 then formatN c .getSeq
  else if c.op = 0x13#8 then formatN c .getAck
  else if c.op = 0x14#8 then formatN c .getDataOffset
  else if c.op = 0x15#8 then formatN c .getFlag
  else if c.op = 0x16#8 then formatN c .getWindow
  else if c.op = 0x17#8 then formatN c .getChecksum
  else if c.op = 0x20#8 then formatH c .setSrcPort
  else if c.op = 0x21#8 then formatH c .setDstPort
  else if c.op = 0x22#8 then formatW c .setSeq
  else if c.op = 0x23#8 then formatW c .setAck
  else if c.op = 0x24#8 then formatQ c .setDataOffset
  else if c.op = 0x25#8 then formatB c .setFlag
  else if c.op = 0x26#8 then formatH c .setWindow
  else if c.op = 0x27#8 then formatH c .setChecksum
  else if c.op = 0x28#8 then formatD c .setPayload
  else if c.op = 0x30#8 then formatA c .isCorrectChecksum
  else if c.op = 0x31#8 then formatA c .csumCompute
  else .error .unassignedOpcode

/-- The decoder: total on every record (R75). -/
def decode (c : Command) : Except DecodeError Instr :=
  if DataFits c.data then decodeOp c else .error .oversizedData

/-! The encoder, from the same formats and opcodes. -/

/-- `CW = {OP, ARG0, ARG1}` (R67). -/
def commandWord (op : Byte) (arg0 arg1 : Word) : CmdWord := op ++ arg0 ++ arg1

/-- The opcode of an operation (R73). -/
def opcodeOf (i : Instr) : Byte :=
  match i with
  | .new _ => 0x01#8
  | .wrap _ => 0x02#8
  | .discard => 0x03#8
  | .emit => 0x04#8
  | .status => 0x05#8
  | .getSrcPort => 0x10#8
  | .getDstPort => 0x11#8
  | .getSeq => 0x12#8
  | .getAck => 0x13#8
  | .getDataOffset => 0x14#8
  | .getFlag => 0x15#8
  | .getWindow => 0x16#8
  | .getChecksum => 0x17#8
  | .setSrcPort _ => 0x20#8
  | .setDstPort _ => 0x21#8
  | .setSeq _ => 0x22#8
  | .setAck _ => 0x23#8
  | .setDataOffset _ => 0x24#8
  | .setFlag _ => 0x25#8
  | .setWindow _ => 0x26#8
  | .setChecksum _ => 0x27#8
  | .setPayload _ => 0x28#8
  | .isCorrectChecksum _ _ => 0x30#8
  | .csumCompute _ _ => 0x31#8

/-- What `ARG0` carries (R70), zero where it is unused. -/
def arg0Of (i : Instr) : Word :=
  match i with
  | .new n => n
  | .setSrcPort v | .setDstPort v | .setWindow v | .setChecksum v => v.setWidth 32
  | .setSeq v | .setAck v => v
  | .setDataOffset v => v.setWidth 32
  | .setFlag v => v.setWidth 32
  | .isCorrectChecksum a _ | .csumCompute a _ => a
  | .wrap _ | .setPayload _ => 0
  | .discard | .emit | .status => 0
  | .getSrcPort | .getDstPort | .getSeq | .getAck => 0
  | .getDataOffset | .getFlag | .getWindow | .getChecksum => 0

/-- What `ARG1` carries (R70), zero where it is unused. -/
def arg1Of (i : Instr) : Word :=
  match i with
  | .isCorrectChecksum _ b | .csumCompute _ b => b
  | .new _ | .wrap _ | .discard | .emit | .status => 0
  | .getSrcPort | .getDstPort | .getSeq | .getAck => 0
  | .getDataOffset | .getFlag | .getWindow | .getChecksum => 0
  | .setSrcPort _ | .setDstPort _ | .setSeq _ | .setAck _ => 0
  | .setDataOffset _ | .setFlag _ | .setWindow _ | .setChecksum _ | .setPayload _ => 0

/-- What `DATA` carries (R70), empty unless the format is D. -/
def dataOf (i : Instr) : List Byte :=
  match i with
  | .wrap data | .setPayload data => data
  | .new _ | .discard | .emit | .status => []
  | .getSrcPort | .getDstPort | .getSeq | .getAck => []
  | .getDataOffset | .getFlag | .getWindow | .getChecksum => []
  | .setSrcPort _ | .setDstPort _ | .setSeq _ | .setAck _ => []
  | .setDataOffset _ | .setFlag _ | .setWindow _ | .setChecksum _ => []
  | .isCorrectChecksum _ _ | .csumCompute _ _ => []

/-- The command record of an instruction (R66, R67). -/
def encode (i : Instr) : Command :=
  { word := commandWord (opcodeOf i) (arg0Of i) (arg1Of i), data := dataOf i }

/-! The opcode table of spec/opcode_table.json. -/

/-- One row of the table: its mask, its match (here `pattern`), and whether it takes `DATA`. -/
structure OpcodeRow where
  mnemonic  : String
  pattern   : CmdWord
  mask      : CmdWord
  takesData : Bool
deriving DecidableEq, Repr

/-- Whether a command word satisfies a row: `(CW & mask) = match` (R72). -/
abbrev OpcodeRow.accepts (r : OpcodeRow) (w : CmdWord) : Prop := w &&& r.mask = r.pattern

/-- The rows of the construction and lifecycle family. -/
def constructionRows : List OpcodeRow :=
  [⟨"NEW",     0x010000000000000000#72, 0xFF00000000FFFFFFFF#72, false⟩,
   ⟨"WRAP",    0x020000000000000000#72, 0xFFFFFFFFFFFFFFFFFF#72, true⟩,
   ⟨"DISCARD", 0x030000000000000000#72, 0xFFFFFFFFFFFFFFFFFF#72, false⟩,
   ⟨"EMIT",    0x040000000000000000#72, 0xFFFFFFFFFFFFFFFFFF#72, false⟩,
   ⟨"STATUS",  0x050000000000000000#72, 0xFFFFFFFFFFFFFFFFFF#72, false⟩]

/-- The rows of the accessors. -/
def accessorRows : List OpcodeRow :=
  [⟨"GET_SRC_PORT",    0x100000000000000000#72, 0xFFFFFFFFFFFFFFFFFF#72, false⟩,
   ⟨"GET_DST_PORT",    0x110000000000000000#72, 0xFFFFFFFFFFFFFFFFFF#72, false⟩,
   ⟨"GET_SEQ",         0x120000000000000000#72, 0xFFFFFFFFFFFFFFFFFF#72, false⟩,
   ⟨"GET_ACK",         0x130000000000000000#72, 0xFFFFFFFFFFFFFFFFFF#72, false⟩,
   ⟨"GET_DATA_OFFSET", 0x140000000000000000#72, 0xFFFFFFFFFFFFFFFFFF#72, false⟩,
   ⟨"GET_FLAG",        0x150000000000000000#72, 0xFFFFFFFFFFFFFFFFFF#72, false⟩,
   ⟨"GET_WINDOW",      0x160000000000000000#72, 0xFFFFFFFFFFFFFFFFFF#72, false⟩,
   ⟨"GET_CHECKSUM",    0x170000000000000000#72, 0xFFFFFFFFFFFFFFFFFF#72, false⟩]

/-- The rows of the mutators. -/
def mutatorRows : List OpcodeRow :=
  [⟨"SET_SRC_PORT",    0x200000000000000000#72, 0xFFFFFF0000FFFFFFFF#72, false⟩,
   ⟨"SET_DST_PORT",    0x210000000000000000#72, 0xFFFFFF0000FFFFFFFF#72, false⟩,
   ⟨"SET_SEQ",         0x220000000000000000#72, 0xFF00000000FFFFFFFF#72, false⟩,
   ⟨"SET_ACK",         0x230000000000000000#72, 0xFF00000000FFFFFFFF#72, false⟩,
   ⟨"SET_DATA_OFFSET", 0x240000000000000000#72, 0xFFFFFFFFF0FFFFFFFF#72, false⟩,
   ⟨"SET_FLAG",        0x250000000000000000#72, 0xFFFFFFFF00FFFFFFFF#72, false⟩,
   ⟨"SET_WINDOW",      0x260000000000000000#72, 0xFFFFFF0000FFFFFFFF#72, false⟩,
   ⟨"SET_CHECKSUM",    0x270000000000000000#72, 0xFFFFFF0000FFFFFFFF#72, false⟩,
   ⟨"SET_PAYLOAD",     0x280000000000000000#72, 0xFFFFFFFFFFFFFFFFFF#72, true⟩]

/-- The rows of the checksum unit. -/
def checksumRows : List OpcodeRow :=
  [⟨"IS_CORRECT_CHECKSUM", 0x300000000000000000#72, 0xFF0000000000000000#72, false⟩,
   ⟨"CSUM_COMPUTE",        0x310000000000000000#72, 0xFF0000000000000000#72, false⟩]

/-- All 24 rows. -/
def opcodeTable : List OpcodeRow := constructionRows ++ accessorRows ++ mutatorRows ++ checksumRows

/-- The instruction the decoder reads from the command word `w` as spec/opcode_table.json numbers its bits
(`OP` in bits 71:64, R67), with empty `DATA`. Every row is one 72-bit word, so the number of bits the table
gives the row says nothing more (log entry 8). -/
def decodeTableWord (_nbits w : Nat) : Option Instr :=
  if w < 2 ^ 72 then (decode { word := BitVec.ofNat 72 w, data := [] }).toOption else none

end Sys2Proof
end

