-- ==== Sys2Proof/Machine/State.lean ====
section
/-! DEFINITION. The state of the block (`10_state.md`), its ports (`30_encoding.md` R65 to R68), why a step
can stop, and the state after reset (`70_reset_and_hazards.md` R160). -/

namespace Sys2Proof.Machine

/-- Memory: the bytes of `BUF` that are not zero, by address, in canonical form (`Memory.wf`). -/
abbrev Memory := List Host.Cell

/-- The canonical form: addresses strictly rising, and no cell equal to what an unlisted address reads as. -/
abbrev Memory.wf (m : Memory) : Prop :=
  m.Pairwise (fun c d => c.1 < d.1) ∧ ∀ c ∈ m, c.2 ≠ Config.unlistedByte

/-- The errors an operation can raise (`60_exceptions.md` R140); their codes are in `Flags.lean`. -/
inductive Error where
  | bufferTooShort         -- R141
  | payloadLengthMismatch  -- R142
  | noSegment              -- R143
  | illegalCommand         -- R144
  | capacityExceeded       -- R145
  | staleChecksum          -- R146
deriving DecidableEq, Repr

/-- A response record `{ERR, RES, DOUT}` (R68). -/
structure Response where
  err  : BitVec 4
  res  : Word
  dout : List Byte
deriving DecidableEq, Repr

/-- What the host can do at the command port and the reset input: present a command (R65), assert reset
between commands (R160), or assert reset while the presented command is being executed (R161). -/
inductive PortEvent where
  | command (c : Command)
  | reset
  | resetDuring (c : Command)
deriving DecidableEq, Repr

/-- The state. `valid`, `plen` and `buf` are the spec's three state elements (R20 to R22); `cfg` is the
block's parameter, which no step writes (R162); `cmdPort` holds the events not yet accepted, oldest first,
and `rspPort` the responses produced and not yet taken by the host, oldest first (R65; log entries 3
and 4). -/
structure State where
  cfg     : Config
  valid   : Bool
  plen    : Half
  buf     : Memory
  cmdPort : List PortEvent
  rspPort : List Response
deriving DecidableEq, Repr

/-- Why the machine stops. No operation and no command record of R66 stops it: every error of R140 is a
response (R151, R152). -/
inductive Fault where
  /-- Raised by `step` alone, when the pending record's `DATA` is longer than 65535 bytes: R66 allows no
  such record, so the spec gives it no effect. SAFE: the model stops (log entry 5). -/
  | oversizedData
deriving DecidableEq, Repr

/-- Why the machine has no meaning for an instruction. -/
inductive Refusal where
  /-- Raised by an arm of `exec` whose instruction has no meaning yet. No arm raises it: every operation
  of the opcode map is modelled. SAFE: the model stops. -/
  | notModelled (mnemonic : String)
deriving DecidableEq, Repr

/-- The machine right after reset (R160): no segment, `PLEN` zero, no command in progress and no response
pending. `BUF` is unspecified there and no operation can observe it; the model lists no byte ("no buffer",
U9: DESIGN CHOICE, log entry 2). `PAYLOAD_MAX` has the default of R5 (log entry 1). -/
def State.reset : State :=
  { cfg := Config.default, valid := false, plen := 0#16, buf := [], cmdPort := [], rspPort := [] }

end Sys2Proof.Machine
end

