-- ==== Sys2Proof/Machine/Flags.lean ====
section
/-! DEFINITION. The block has no flags or condition register and no operation writes a flag (`10_state.md`
R31). The two things a host may branch on are outputs of one response: the error code `ERR` and the boolean
in `RES[0]`. This file gives their values. -/

namespace Sys2Proof.Machine

/-- The 4-bit `ERR` of each error (`60_exceptions.md` R140). -/
def Error.code (e : Error) : BitVec 4 :=
  match e with
  | .bufferTooShort => 1#4
  | .payloadLengthMismatch => 2#4
  | .noSegment => 3#4
  | .illegalCommand => 4#4
  | .capacityExceeded => 5#4
  | .staleChecksum => 6#4

/-- `ERR` of a success (R140). -/
def okCode : BitVec 4 := 0#4

/-- A boolean result in `RES`: 1 or 0 (R129). -/
def boolRes (b : Bool) : Word := if b then 1#32 else 0#32

end Sys2Proof.Machine
end

