-- ==== Sys2Proof/Machine/Operands.lean ====
section
/-! DEFINITION. Operand and result forms: the bytes of a 16-bit and a 32-bit value, most significant first
(`20_memory.md` R41), their inverse, and the zero-extension of a result to `RES` (R68). The operand formats
of R70 are the decoder's (`Decode.lean`): an operation receives its operand at the field's width. -/

namespace Sys2Proof.Machine

/-- The two bytes of a 16-bit value, most significant first (R41). -/
def bytesOfHalf (v : Half) : List Byte := [v.extractLsb' 8 8, v.extractLsb' 0 8]

/-- The four bytes of a 32-bit value, most significant first (R41). For an address operand `a.b.c.d` they
are `a`, `b`, `c`, `d` (R71). -/
def bytesOfWord (v : Word) : List Byte :=
  [v.extractLsb' 24 8, v.extractLsb' 16 8, v.extractLsb' 8 8, v.extractLsb' 0 8]

/-- The 16-bit value of two bytes, most significant first (R8). -/
def halfOfBytes (b0 b1 : Byte) : Half := b0 ++ b1

/-- The 32-bit value of four bytes, most significant first (R8). -/
def wordOfBytes (b0 b1 b2 b3 : Byte) : Word := b0 ++ b1 ++ b2 ++ b3

/-- `zext_32` (R6): a result in `RES` is zero-extended to 32 bits (R68). -/
def zext32 {n : Nat} (v : BitVec n) : Word := v.setWidth 32

/-- The high nibble of byte 12 (R61). -/
def highNibble (b : Byte) : BitVec 4 := b.extractLsb' 4 4

/-- A 4-bit value placed in the high nibble: `zext_8(a) << 4` (R105). -/
def toHighNibble (v : BitVec 4) : Byte := v.setWidth 8 <<< 4

/-- `{VALID, PLEN}` zero-extended: `RES[16] = VALID`, `RES[15:0] = PLEN` (R85). -/
def statusWord (valid : Bool) (plen : Half) : Word := zext32 (BitVec.ofBool valid ++ plen)

end Sys2Proof.Machine
end

