-- ==== Sys2Proof/Machine/Ops.lean ====
section
/-! DEFINITION. The operations the meanings share: reading and writing bytes of `BUF` (`00_scope.md` R7,
R8), ending in a success or an error (R9), the check for a segment (R143), accepting the next event of the
command port (R65), and reset (R160, R161). -/

namespace Sys2Proof.Machine

/-! ### Memory, by byte -/

/-- One byte of memory. An address that is not listed reads as `Config.unlistedByte`. -/
def Memory.read (m : Memory) (a : Nat) : Byte :=
  match m with
  | [] => Config.unlistedByte
  | c :: rest => if c.1 = a then c.2 else Memory.read rest a

/-- A cell listed at its place among rising addresses. -/
def Memory.insert (m : Memory) (a : Nat) (v : Byte) : Memory :=
  match m with
  | [] => [(a, v)]
  | c :: rest => if a < c.1 then (a, v) :: c :: rest else c :: Memory.insert rest a v

/-- An address no longer listed. -/
def Memory.erase (m : Memory) (a : Nat) : Memory := m.filter fun c => c.1 ≠ a

/-- One byte written, in canonical form: what an unlisted address reads as is not listed. -/
def Memory.write (m : Memory) (a : Nat) (v : Byte) : Memory :=
  if v = Config.unlistedByte then Memory.erase m a else Memory.insert (Memory.erase m a) a v

/-- A sequence of bytes written from `a` up. -/
def Memory.writeBytes (m : Memory) (a : Nat) (bytes : List Byte) : Memory :=
  match bytes with
  | [] => m
  | b :: rest => Memory.writeBytes (Memory.write m a b) (a + 1) rest

/-- `BUF[a..a+n]` (R7). -/
def Memory.readBytes (m : Memory) (a n : Nat) : List Byte :=
  (List.range n).map fun k => Memory.read m (a + k)

/-- A memory every byte of which is zero (what `NEW` leaves, R80): nothing is listed. -/
def Memory.zeroed : Memory := []

/-! ### `BUF` -/

/-- The total length `L = 20 + PLEN` (R20). -/
def State.len (s : State) : Nat := Config.hdrLen + s.plen.toNat

/-- `MemRead(o, 1)` (R8). -/
def State.memRead1 (s : State) (o : Nat) : Byte := Memory.read s.buf o

/-- `MemRead(o, 2)` (R8). -/
def State.memRead2 (s : State) (o : Nat) : Half :=
  halfOfBytes (Memory.read s.buf o) (Memory.read s.buf (o + 1))

/-- `MemRead(o, 4)` (R8). -/
def State.memRead4 (s : State) (o : Nat) : Word :=
  wordOfBytes (Memory.read s.buf o) (Memory.read s.buf (o + 1))
    (Memory.read s.buf (o + 2)) (Memory.read s.buf (o + 3))

/-- `BUF` with the bytes from `o` up replaced. -/
def State.memWrite (s : State) (o : Nat) (bytes : List Byte) : State :=
  { s with buf := Memory.writeBytes s.buf o bytes }

/-- `MemWrite(o, 2, v)` (R8). -/
def State.memWrite2 (s : State) (o : Nat) (v : Half) : State := s.memWrite o (bytesOfHalf v)

/-- `MemWrite(o, 4, v)` (R8). -/
def State.memWrite4 (s : State) (o : Nat) (v : Word) : State := s.memWrite o (bytesOfWord v)

/-- The whole segment, `BUF[0..L]`. -/
def State.segment (s : State) : List Byte := Memory.readBytes s.buf 0 s.len

/-- A segment taken into the block: `VALID`, `PLEN` and the whole of `BUF` together (R20). -/
def State.holdSegment (s : State) (plen : Half) (m : Memory) : State :=
  { s with valid := true, plen := plen, buf := m }

/-- No segment held: what `DISCARD` (R83) and reset (R160) leave. `BUF` is unspecified and unobservable
there; the model keeps no buffer (U9: DESIGN CHOICE, log entry 2). -/
def State.holdNone (s : State) : State :=
  { s with valid := false, plen := 0#16, buf := [] }

/-! ### How an operation ends -/

/-- A response produced on the response port (R65). -/
def State.respond (s : State) (r : Response) : State :=
  { s with rspPort := s.rspPort ++ [r] }

/-- `return OK(res, dout)` (R9). -/
def returnOk (s : State) (res : Word) (dout : List Byte) : Host.Outcome State Fault Refusal :=
  .next (s.respond { err := okCode, res := res, dout := dout })

/-- `return OK()` (R9): `RES = 0`, `DOUT` empty. -/
def returnDone (s : State) : Host.Outcome State Fault Refusal := returnOk s 0#32 []

/-- `raise <Name>` (R9): taking an exception. The block answers `{ERR = code, RES = 0, DOUT = empty}` and
changes no state (R149); nothing is saved, no mode changes and control goes nowhere (R151), so there is no
return from it either (R152): the next command is accepted as usual. -/
def raise (s : State) (e : Error) : Host.Outcome State Fault Refusal :=
  .next (s.respond { err := e.code, res := 0#32, dout := [] })

/-- `if VALID = 0: raise NoSegment` (R143), before the operation's own work (R148). -/
def withSegment (s : State) (body : Host.Outcome State Fault Refusal) :
    Host.Outcome State Fault Refusal :=
  if s.valid then body else raise s .noSegment

/-! ### The command port and the reset input -/

/-- The next event accepted, oldest first (R65), or none: the block is idle. -/
def State.accept (s : State) : Option (PortEvent × State) :=
  match s.cmdPort with
  | [] => none
  | e :: rest => some (e, { s with cmdPort := rest })

/-- What the block does with a record that is not decoded: an ill-formed command raises `IllegalCommand`
(R72, R144); what is no command record (R66) stops the model (log entry 5). -/
def rejectCommand (e : DecodeError) (s : State) : Host.Outcome State Fault Refusal :=
  match e with
  | .oversizedData => .fault .oversizedData
  | .unassignedOpcode => raise s .illegalCommand
  | .unusedOperandBits => raise s .illegalCommand
  | .unexpectedData => raise s .illegalCommand

/-- Reset asserted (R160): no segment, no response pending. The parameters stay (R162), and so do the
events the host has still to present. A command it interrupts is abandoned with no response (R161). -/
def resetInput (s : State) : Host.Outcome State Fault Refusal :=
  .next { s.holdNone with rspPort := [] }

end Sys2Proof.Machine
end

