-- ==== Sys2Proof/Machine/Accessors.lean ====
section
/-! DEFINITION. The accessors (`41_accessors.md` R90 to R98): each returns its field, zero-extended, and
changes nothing. -/

namespace Sys2Proof.Machine

/-- `GET_SRC_PORT` (R91). -/
def execGetSrcPort (s : State) : Host.Outcome State Fault Refusal :=
  withSegment s (returnOk s (zext32 (s.memRead2 0)) [])

/-- `GET_DST_PORT` (R92). -/
def execGetDstPort (s : State) : Host.Outcome State Fault Refusal :=
  withSegment s (returnOk s (zext32 (s.memRead2 2)) [])

/-- `GET_SEQ` (R93). -/
def execGetSeq (s : State) : Host.Outcome State Fault Refusal :=
  withSegment s (returnOk s (s.memRead4 4) [])

/-- `GET_ACK` (R94). -/
def execGetAck (s : State) : Host.Outcome State Fault Refusal :=
  withSegment s (returnOk s (s.memRead4 8) [])

/-- `GET_DATA_OFFSET` (R95): the high nibble of byte 12, as it is. -/
def execGetDataOffset (s : State) : Host.Outcome State Fault Refusal :=
  withSegment s (returnOk s (zext32 (highNibble (s.memRead1 12))) [])

/-- `GET_FLAG` (R96): all eight bits of byte 13. -/
def execGetFlag (s : State) : Host.Outcome State Fault Refusal :=
  withSegment s (returnOk s (zext32 (s.memRead1 13)) [])

/-- `GET_WINDOW` (R97). -/
def execGetWindow (s : State) : Host.Outcome State Fault Refusal :=
  withSegment s (returnOk s (zext32 (s.memRead2 14)) [])

/-- `GET_CHECKSUM` (R98): the stored field; it computes nothing. -/
def execGetChecksum (s : State) : Host.Outcome State Fault Refusal :=
  withSegment s (returnOk s (zext32 (s.memRead2 16)) [])

end Sys2Proof.Machine
end

