-- ==== Sys2Proof/Machine/Checksum.lean ====
section
/-! DEFINITION. The checksum unit (`43_checksum.md`): word formation, ones-complement addition, the
pseudo-header, `CK`, and the two operations. The unit keeps nothing between operations (R33). -/

namespace Sys2Proof.Machine

/-- `words(P)` (R120): big-endian 16-bit words, an odd last byte padded on the right with zero. -/
def words (bytes : List Byte) : List Half :=
  match bytes with
  | [] => []
  | [b] => [halfOfBytes b 0#8]
  | b0 :: b1 :: rest => halfOfBytes b0 b1 :: words rest

/-- `ocadd16(a, b)` (R121): the 17-bit sum with its carry added back in at bit 0. -/
def ocadd16 (a b : Half) : Half :=
  let sum : BitVec 17 := a.setWidth 17 + b.setWidth 17
  sum.extractLsb' 0 16 + (sum.extractLsb' 16 1).setWidth 16

/-- `ocsum(ws)` (R122): from zero, each word added in order. -/
def ocsum (ws : List Half) : Half := ws.foldl ocadd16 0#16

/-- `fold(S)` (R123), at most `fuel` passes of it. -/
def foldPasses (fuel s : Nat) : Nat :=
  match fuel with
  | 0 => s
  | fuel + 1 => if 0xFFFF < s then foldPasses fuel (s % 0x10000 + s / 0x10000) else s

/-- `fold(S)` (R123). Each pass makes `S` smaller, so `S` passes are enough for the loop to end. No
operation calls it: the unit adds with `ocadd16`, and R124 says both give the same value. -/
def fold (s : Nat) : Nat := foldPasses s s

/-- `PH(a0, a1, L)` (R127): the 12 bytes of the pseudo-header, the length as a 16-bit value. -/
def pseudoHeader (a0 a1 : Word) (len : Nat) : List Byte :=
  bytesOfWord a0 ++ bytesOfWord a1 ++ [0#8, Config.proto] ++ bytesOfHalf (BitVec.ofNat 16 len)

/-- The byte of the segment at `k` as the unit sees it: the checksum field (bytes 16 and 17) taken as zero
(R128, C2). -/
def State.maskedByte (s : State) (k : Nat) : Byte :=
  if k = 16 ∨ k = 17 then 0#8 else Memory.read s.buf k

/-- `BUFZ` (R128). -/
def State.maskedSegment (s : State) : List Byte := (List.range s.len).map s.maskedByte

/-- The ones-complement sum of the pseudo-header and the masked segment (R128). -/
def State.checksumSum (s : State) (a0 a1 : Word) : Half :=
  ocsum (words (pseudoHeader a0 a1 s.len) ++ words s.maskedSegment)

/-- `CK(a0, a1)` (R128). -/
def State.checksum (s : State) (a0 a1 : Word) : Half := 0xFFFF#16 ^^^ s.checksumSum a0 a1

/-- `IS_CORRECT_CHECKSUM local, remote` (R129): 1 if the stored field equals `CK`, else 0. A mismatch is
no error (R147). -/
def execIsCorrectChecksum (a0 a1 : Word) (s : State) : Host.Outcome State Fault Refusal :=
  withSegment s (returnOk s (boolRes (s.checksum a0 a1 = s.memRead2 16)) [])

/-- `CSUM_COMPUTE a0, a1` (R130): `CK`, refused while the stored field is not zero. -/
def execCsumCompute (a0 a1 : Word) (s : State) : Host.Outcome State Fault Refusal :=
  withSegment s
    (if s.memRead2 16 = 0#16 then returnOk s (zext32 (s.checksum a0 a1)) []
     else raise s .staleChecksum)

end Sys2Proof.Machine
end

