-- ==== Sys2Proof/Machine/Construction.lean ====
section
/-! DEFINITION. Construction and lifecycle (`40_construction.md`): NEW, WRAP, DISCARD, EMIT, STATUS. -/

namespace Sys2Proof.Machine

/-- `NEW payload_len` (R80): a zero-filled segment of `20 + payload_len` bytes. -/
def execNew (payloadLen : Word) (s : State) : Host.Outcome State Fault Refusal :=
  if s.cfg.payloadMax.val < payloadLen.toNat then raise s .capacityExceeded
  else returnDone (s.holdSegment (payloadLen.extractLsb' 0 16) Memory.zeroed)

/-- `WRAP [bytes]` (R81): the supplied bytes become the segment. Only the length is checked (R82). -/
def execWrap (data : List Byte) (s : State) : Host.Outcome State Fault Refusal :=
  if data.length < Config.hdrLen then raise s .bufferTooShort
  else if Config.hdrLen + s.cfg.payloadMax.val < data.length then raise s .capacityExceeded
  else
    returnDone
      (s.holdSegment (BitVec.ofNat 16 (data.length - Config.hdrLen)) (Memory.writeBytes [] 0 data))

/-- `DISCARD` (R83): release the segment; it succeeds with none held. -/
def execDiscard (s : State) : Host.Outcome State Fault Refusal := returnDone s.holdNone

/-- `EMIT` (R84): the whole buffer in `DOUT`, the state unchanged. -/
def execEmit (s : State) : Host.Outcome State Fault Refusal :=
  withSegment s (returnOk s 0#32 s.segment)

/-- `STATUS` (R85): `VALID` and `PLEN`; it needs no segment. -/
def execStatus (s : State) : Host.Outcome State Fault Refusal :=
  returnOk s (statusWord s.valid s.plen) []

end Sys2Proof.Machine
end

