-- ==== Sys2Proof/Machine/Mutators.lean ====
section
/-! DEFINITION. The mutators (`42_mutators.md` R100 to R109): each writes its bytes of `BUF` and nothing
else. -/

namespace Sys2Proof.Machine

/-- `SET_SRC_PORT v` (R101). -/
def execSetSrcPort (v : Half) (s : State) : Host.Outcome State Fault Refusal :=
  withSegment s (returnDone (s.memWrite2 0 v))

/-- `SET_DST_PORT v` (R102). -/
def execSetDstPort (v : Half) (s : State) : Host.Outcome State Fault Refusal :=
  withSegment s (returnDone (s.memWrite2 2 v))

/-- `SET_SEQ v` (R103). -/
def execSetSeq (v : Word) (s : State) : Host.Outcome State Fault Refusal :=
  withSegment s (returnDone (s.memWrite4 4 v))

/-- `SET_ACK v` (R104). -/
def execSetAck (v : Word) (s : State) : Host.Outcome State Fault Refusal :=
  withSegment s (returnDone (s.memWrite4 8 v))

/-- `SET_DATA_OFFSET a` (R105): a bitwise OR into the high nibble of byte 12, never an overwrite (D10). -/
def execSetDataOffset (v : BitVec 4) (s : State) : Host.Outcome State Fault Refusal :=
  withSegment s (returnDone (s.memWrite 12 [s.memRead1 12 ||| toHighNibble v]))

/-- `SET_FLAG v` (R106): all eight bits of byte 13 replaced. -/
def execSetFlag (v : Byte) (s : State) : Host.Outcome State Fault Refusal :=
  withSegment s (returnDone (s.memWrite 13 [v]))

/-- `SET_WINDOW v` (R107). -/
def execSetWindow (v : Half) (s : State) : Host.Outcome State Fault Refusal :=
  withSegment s (returnDone (s.memWrite2 14 v))

/-- `SET_CHECKSUM v` (R108): the operand as given. -/
def execSetChecksum (v : Half) (s : State) : Host.Outcome State Fault Refusal :=
  withSegment s (returnDone (s.memWrite2 16 v))

/-- `SET_PAYLOAD [bytes]` (R109): exactly `PLEN` bytes from offset 20, or nothing at all. -/
def execSetPayload (data : List Byte) (s : State) : Host.Outcome State Fault Refusal :=
  withSegment s
    (if data.length = s.plen.toNat then returnDone (s.memWrite Config.hdrLen data)
     else raise s .payloadLengthMismatch)

end Sys2Proof.Machine
end

