-- ==== Sys2Proof/Machine/Dispatch.lean ====
section
/-! DEFINITION. One arm per operation of the opcode map (`30_encoding.md` R73). -/

namespace Sys2Proof.Machine

def exec (i : Instr) (s : State) : Host.Outcome State Fault Refusal :=
  match i with
  | .new payloadLen => Sys2Proof.Machine.execNew payloadLen s
  | .wrap data => Sys2Proof.Machine.execWrap data s
  | .discard => Sys2Proof.Machine.execDiscard s
  | .emit => Sys2Proof.Machine.execEmit s
  | .status => Sys2Proof.Machine.execStatus s
  | .getSrcPort => Sys2Proof.Machine.execGetSrcPort s
  | .getDstPort => Sys2Proof.Machine.execGetDstPort s
  | .getSeq => Sys2Proof.Machine.execGetSeq s
  | .getAck => Sys2Proof.Machine.execGetAck s
  | .getDataOffset => Sys2Proof.Machine.execGetDataOffset s
  | .getFlag => Sys2Proof.Machine.execGetFlag s
  | .getWindow => Sys2Proof.Machine.execGetWindow s
  | .getChecksum => Sys2Proof.Machine.execGetChecksum s
  | .setSrcPort v => Sys2Proof.Machine.execSetSrcPort v s
  | .setDstPort v => Sys2Proof.Machine.execSetDstPort v s
  | .setSeq v => Sys2Proof.Machine.execSetSeq v s
  | .setAck v => Sys2Proof.Machine.execSetAck v s
  | .setDataOffset v => Sys2Proof.Machine.execSetDataOffset v s
  | .setFlag v => Sys2Proof.Machine.execSetFlag v s
  | .setWindow v => Sys2Proof.Machine.execSetWindow v s
  | .setChecksum v => Sys2Proof.Machine.execSetChecksum v s
  | .setPayload data => Sys2Proof.Machine.execSetPayload data s
  | .isCorrectChecksum a0 a1 => Sys2Proof.Machine.execIsCorrectChecksum a0 a1 s
  | .csumCompute a0 a1 => Sys2Proof.Machine.execCsumCompute a0 a1 s

end Sys2Proof.Machine
end

