-- ==== Sys2Proof/Machine/Step.lean ====
section
/-! DEFINITION. One step of the block: the next event of the command port is accepted and executed to
completion (`30_encoding.md` R65, `20_memory.md` R47). There is no program counter and no fetch from `BUF`
(R30, R56). -/

namespace Sys2Proof.Machine

/-- One step. With nothing pending the block is idle and keeps its state (R158). -/
def step (s : State) : Host.Outcome State Fault Refusal :=
  match s.accept with
  | none => .next s
  | some (.command c, t) =>
    match decode c with
    | .ok i => exec i t
    | .error e => rejectCommand e t
  | some (.reset, t) => resetInput t
  | some (.resetDuring _, t) => resetInput t

/-- `s` with the command word `w` (bits as spec/opcode_table.json numbers them, empty `DATA`) presented as
the next command of the command port, before whatever the host has still to present (log entry 8). -/
def State.withFetchWord (s : State) (_nbits w : Nat) : State :=
  { s with cmdPort := .command { word := BitVec.ofNat 72 w, data := [] } :: s.cmdPort }

end Sys2Proof.Machine
end

