-- ==== Sys2Proof/Safety.lean ====
section
/-! DEFINITION. The terms the statements use: the invariant of the block's states, which operations need a
segment and which error each can raise, the order of the checks, what a state lets a host observe, and the
shapes shared by the statements about accessors and mutators. Nothing here is used by the machine. -/

namespace Sys2Proof.Safety

open Sys2Proof.Machine

/-! ### Responses -/

/-- The response of a success (R9, R68). -/
def okResponse (res : Word) (dout : List Byte) : Response := { err := 0#4, res := res, dout := dout }

/-- The response of an error (R9): `RES = 0`, `DOUT` empty. -/
def errResponse (code : BitVec 4) : Response := { err := code, res := 0#32, dout := [] }

/-- What R68 and R140 say of every response: `ERR` is 0 to 6, and an error carries nothing else. -/
def ResponseOk (r : Response) : Prop :=
  r.err.toNat ≤ 6 ∧ (r.err ≠ 0#4 → r.res = 0#32 ∧ r.dout = [])

/-! ### Bytes of `BUF` -/

/-- `BUF[a]` as a number. -/
def byteAt (s : State) (a : Nat) : Nat := (Memory.read s.buf a).toNat

/-- Two states hold the same bytes at every address. -/
def SameBytes (s t : State) : Prop := ∀ a, Memory.read t.buf a = Memory.read s.buf a

/-- Everything but `BUF` and the response port is as before, and one success response without a result was
added: what a setter leaves (R100). -/
def OnlyBufWritten (s t : State) : Prop :=
  t.cfg = s.cfg ∧ t.valid = s.valid ∧ t.plen = s.plen ∧ t.cmdPort = s.cmdPort ∧
    t.rspPort = s.rspPort ++ [okResponse 0#32 []]

/-! ### The invariant -/

/-- The states of the block: memory is in canonical form, the payload capacity is within `PAYLOAD_MAX`
(R21), no segment means `PLEN = 0` (R85), a held segment has its bytes at 0 to L-1 (R20), and every response
has the shape of R68. -/
structure Inv (s : State) : Prop where
  memory    : Memory.wf s.buf
  capacity  : s.plen.toNat ≤ s.cfg.payloadMax.val
  empty     : s.valid = false → s.plen = 0#16
  inside    : s.valid = true → ∀ c ∈ s.buf, c.1 < 20 + s.plen.toNat
  responses : ∀ r ∈ s.rspPort, ResponseOk r

/-! ### Which operation needs what -/

/-- The operations that need a segment (R22): all but NEW, WRAP, DISCARD and STATUS. -/
def needsSegment (i : Instr) : Bool :=
  match i with
  | .new _ | .wrap _ | .discard | .status => false
  | .emit => true
  | .getSrcPort | .getDstPort | .getSeq | .getAck => true
  | .getDataOffset | .getFlag | .getWindow | .getChecksum => true
  | .setSrcPort _ | .setDstPort _ | .setSeq _ | .setAck _ => true
  | .setDataOffset _ | .setFlag _ | .setWindow _ | .setChecksum _ | .setPayload _ => true
  | .isCorrectChecksum _ _ | .csumCompute _ _ => true

/-- The operations that change `VALID` and `PLEN`, and that write the whole of `BUF` (R20 to R22). -/
def changesSegment (i : Instr) : Bool :=
  match i with
  | .new _ | .wrap _ | .discard => true
  | .emit | .status => false
  | .getSrcPort | .getDstPort | .getSeq | .getAck => false
  | .getDataOffset | .getFlag | .getWindow | .getChecksum => false
  | .setSrcPort _ | .setDstPort _ | .setSeq _ | .setAck _ => false
  | .setDataOffset _ | .setFlag _ | .setWindow _ | .setChecksum _ | .setPayload _ => false
  | .isCorrectChecksum _ _ | .csumCompute _ _ => false

/-- The nine setters (R100). -/
def isSetter (i : Instr) : Bool :=
  match i with
  | .setSrcPort _ | .setDstPort _ | .setSeq _ | .setAck _ => true
  | .setDataOffset _ | .setFlag _ | .setWindow _ | .setChecksum _ | .setPayload _ => true
  | .new _ | .wrap _ | .discard | .emit | .status => false
  | .getSrcPort | .getDstPort | .getSeq | .getAck => false
  | .getDataOffset | .getFlag | .getWindow | .getChecksum => false
  | .isCorrectChecksum _ _ | .csumCompute _ _ => false

/-- The operations that read and change nothing (R48): the getters, EMIT, STATUS and the checksum unit. -/
def isReader (i : Instr) : Bool := !changesSegment i && !isSetter i

/-- The eight getters (R90). -/
def getters : List Instr :=
  [.getSrcPort, .getDstPort, .getSeq, .getAck, .getDataOffset, .getFlag, .getWindow, .getChecksum]

/-- The getter of the field a setter writes (R111); the payload has none (R99). -/
def getterOf (i : Instr) : Option Instr :=
  match i with
  | .setSrcPort _ => some .getSrcPort
  | .setDstPort _ => some .getDstPort
  | .setSeq _ => some .getSeq
  | .setAck _ => some .getAck
  | .setDataOffset _ => some .getDataOffset
  | .setFlag _ => some .getFlag
  | .setWindow _ => some .getWindow
  | .setChecksum _ => some .getChecksum
  | .setPayload _ => none
  | .new _ | .wrap _ | .discard | .emit | .status => none
  | .getSrcPort | .getDstPort | .getSeq | .getAck => none
  | .getDataOffset | .getFlag | .getWindow | .getChecksum => none
  | .isCorrectChecksum _ _ | .csumCompute _ _ => none

/-- The mnemonic of an operation (R73). -/
def mnemonicOf (i : Instr) : String :=
  match i with
  | .new _ => "NEW"
  | .wrap _ => "WRAP"
  | .discard => "DISCARD"
  | .emit => "EMIT"
  | .status => "STATUS"
  | .getSrcPort => "GET_SRC_PORT"
  | .getDstPort => "GET_DST_PORT"
  | .getSeq => "GET_SEQ"
  | .getAck => "GET_ACK"
  | .getDataOffset => "GET_DATA_OFFSET"
  | .getFlag => "GET_FLAG"
  | .getWindow => "GET_WINDOW"
  | .getChecksum => "GET_CHECKSUM"
  | .setSrcPort _ => "SET_SRC_PORT"
  | .setDstPort _ => "SET_DST_PORT"
  | .setSeq _ => "SET_SEQ"
  | .setAck _ => "SET_ACK"
  | .setDataOffset _ => "SET_DATA_OFFSET"
  | .setFlag _ => "SET_FLAG"
  | .setWindow _ => "SET_WINDOW"
  | .setChecksum _ => "SET_CHECKSUM"
  | .setPayload _ => "SET_PAYLOAD"
  | .isCorrectChecksum _ _ => "IS_CORRECT_CHECKSUM"
  | .csumCompute _ _ => "CSUM_COMPUTE"

/-- The unassigned opcodes (R75). -/
abbrev Unassigned (op : Nat) : Prop :=
  op = 0 ∨ (0x06 ≤ op ∧ op ≤ 0x0F) ∨ (0x18 ≤ op ∧ op ≤ 0x1F) ∨ (0x29 ≤ op ∧ op ≤ 0x2F) ∨
    (0x32 ≤ op ∧ op ≤ 0xFF)

/-- A command is well-formed (R72): its word satisfies a row of the table, and it has no `DATA` unless the
row takes `DATA`. -/
def CommandOk (c : Command) : Prop :=
  ∃ row ∈ opcodeTable, row.accepts c.word ∧ (row.takesData = true ∨ c.data = [])

/-! ### Errors -/

/-- The codes an operation can answer with (R159), 0 being success (R140). -/
def possibleCodes (i : Instr) : List (BitVec 4) :=
  match i with
  | .new _ => [0#4, 5#4]
  | .wrap _ => [0#4, 1#4, 5#4]
  | .discard | .status => [0#4]
  | .emit => [0#4, 3#4]
  | .getSrcPort | .getDstPort | .getSeq | .getAck => [0#4, 3#4]
  | .getDataOffset | .getFlag | .getWindow | .getChecksum => [0#4, 3#4]
  | .setSrcPort _ | .setDstPort _ | .setSeq _ | .setAck _ => [0#4, 3#4]
  | .setDataOffset _ | .setFlag _ | .setWindow _ | .setChecksum _ => [0#4, 3#4]
  | .setPayload _ => [0#4, 3#4, 2#4]
  | .isCorrectChecksum _ _ => [0#4, 3#4]
  | .csumCompute _ _ => [0#4, 3#4, 6#4]

/-- An operation's own condition, the third check of R148: the code it raises, 0 for none. -/
def ownCheck (i : Instr) (s : State) : BitVec 4 :=
  match i with
  | .new n => if s.cfg.payloadMax.val < n.toNat then 5#4 else 0#4
  | .wrap data =>
    if data.length < 20 then 1#4
    else if 20 + s.cfg.payloadMax.val < data.length then 5#4 else 0#4
  | .setPayload data => if data.length = s.plen.toNat then 0#4 else 2#4
  | .csumCompute _ _ => if byteAt s 16 = 0 ∧ byteAt s 17 = 0 then 0#4 else 6#4
  | .discard | .emit | .status => 0#4
  | .getSrcPort | .getDstPort | .getSeq | .getAck => 0#4
  | .getDataOffset | .getFlag | .getWindow | .getChecksum => 0#4
  | .setSrcPort _ | .setDstPort _ | .setSeq _ | .setAck _ => 0#4
  | .setDataOffset _ | .setFlag _ | .setWindow _ | .setChecksum _ => 0#4
  | .isCorrectChecksum _ _ => 0#4

/-! ### What a host can observe -/

/-- Two states a host cannot tell apart (R33, R160): everything is equal but `BUF` where no segment is
held. -/
def SameToHost (s t : State) : Prop :=
  s.cfg = t.cfg ∧ s.valid = t.valid ∧ s.plen = t.plen ∧ s.cmdPort = t.cmdPort ∧ s.rspPort = t.rspPort ∧
    (s.valid = true → s.buf = t.buf)

/-! ### Shapes of the statements about the operations -/

/-- The command record `{op, arg0, arg1, data}` (R66, R67) is the operation `i`. -/
def Carries (op : Byte) (arg0 arg1 : Word) (data : List Byte) (i : Instr) : Prop :=
  decode { word := commandWord op arg0 arg1, data := data } = .ok i

/-- A getter, of opcode `op` and format N, with a segment held answers `value` and changes nothing else;
without one it raises `NoSegment` (R90). -/
def GetterReturns (op : Byte) (get : Instr) (value : State → Nat) : Prop :=
  Carries op 0#32 0#32 [] get ∧
  ∀ s : State,
    (s.valid = true →
      exec get s = .next (s.respond (okResponse (BitVec.ofNat 32 (value s)) []))) ∧
    (s.valid = false → exec get s = .next (s.respond (errResponse 3#4)))

/-- A setter of the field of `k` bytes at offset `o` (R100), of opcode `op`, its operand in the low bits of
`ARG0`: with a segment held it writes its operand there, most significant byte first, and nothing else; the
getter of the field then answers the operand, and a second run writes no byte anew. Without a segment it
raises `NoSegment`. -/
def SetterStores {n : Nat} (op : Byte) (set : BitVec n → Instr) (get : Instr) (o k : Nat) : Prop :=
  ∀ (s : State) (v : BitVec n),
    Carries op (v.setWidth 32) 0#32 [] (set v) ∧
    (s.valid = true →
      ∃ t : State, exec (set v) s = .next t ∧ OnlyBufWritten s t ∧
        (∀ j, j < k → byteAt t (o + j) = v.toNat / 256 ^ (k - 1 - j) % 256) ∧
        (∀ a, a < o ∨ o + k ≤ a → Memory.read t.buf a = Memory.read s.buf a) ∧
        exec get t = .next (t.respond (okResponse (v.setWidth 32) [])) ∧
        ∃ u : State, exec (set v) t = .next u ∧ OnlyBufWritten t u ∧ SameBytes t u) ∧
    (s.valid = false → exec (set v) s = .next (s.respond (errResponse 3#4)))

/-- `IS_CORRECT_CHECKSUM a0, a1` answers 1. -/
def Validates (s : State) (a0 a1 : Word) : Prop :=
  exec (.isCorrectChecksum a0 a1) s = .next (s.respond (okResponse 1#32 []))

/-- `IS_CORRECT_CHECKSUM a0, a1` answers 0: a mismatch, no error (R147). -/
def Mismatches (s : State) (a0 a1 : Word) : Prop :=
  exec (.isCorrectChecksum a0 a1) s = .next (s.respond (okResponse 0#32 []))

/-- The stored checksum field as a number. -/
def storedChecksum (s : State) : Nat := byteAt s 16 * 256 + byteAt s 17

/-- The sum of the two 16-bit halves of an address operand (R135). -/
def halfSum (a : Word) : Nat := a.toNat / 65536 + a.toNat % 65536

/-- The unbounded sum of a list of 16-bit words (R124). -/
def plainSum (ws : List Half) : Nat := (ws.map BitVec.toNat).sum

/-- The words `CK` sums (R128): those of the pseudo-header and those of the segment with its checksum
field taken as zero. -/
def summedWords (s : State) (a0 a1 : Word) : List Half :=
  words (pseudoHeader a0 a1 (20 + s.plen.toNat)) ++
    words ((List.range (20 + s.plen.toNat)).map fun k =>
      if k = 16 ∨ k = 17 then 0#8 else Memory.read s.buf k)

/-- An adder tree over 16-bit words (R125): a leaf, a widening adder, a `fold` of a wide value, or an
end-around-carry adder of two 16-bit values. -/
inductive AdderTree where
  | leaf (w : Half)
  | wide (l r : AdderTree)
  | folded (t : AdderTree)
  | narrow (l r : AdderTree)
deriving DecidableEq, Repr

/-- The value a tree computes; the inputs of an end-around-carry adder are 16 bits wide, so a wide value
is folded on its way in. -/
def AdderTree.value (t : AdderTree) : Nat :=
  match t with
  | .leaf w => w.toNat
  | .wide l r => l.value + r.value
  | .folded t => fold t.value
  | .narrow l r =>
    (ocadd16 (BitVec.ofNat 16 (fold l.value)) (BitVec.ofNat 16 (fold r.value))).toNat

/-- The words at the leaves of a tree, from left to right. -/
def AdderTree.leaves (t : AdderTree) : List Half :=
  match t with
  | .leaf w => [w]
  | .wide l r => l.leaves ++ r.leaves
  | .folded t => t.leaves
  | .narrow l r => l.leaves ++ r.leaves

end Sys2Proof.Safety
end

