-- ==== Sys2Proof/Certificates/Slice0/Obligations.lean ====
section
/-! DEFINITION. The statements about the model, from the spec's numbered rules. Each docstring names the
rule. Where a clause rests on a choice of the model and not on a rule, the docstring says so and names the
log entry. -/

open Sys2Proof Sys2Proof.Machine Sys2Proof.Safety

/-! ### Encoding -/

/-- R66, R67, R70, R73: no bit of an encoding is dropped. Decoding the command record of a well-formed
instruction gives the instruction back, every operand at every value. -/
def Obligations.DecodeOfEncodeIsTheInstruction : Prop :=
  ∀ i : Instr, WellFormed i = true → decode (encode i) = .ok i

/-- R67, R70, R73: the opcode map. Each opcode, with its operands where R70's format puts them, at every
value, and every unused bit zero, is the operation the map gives it. -/
def Obligations.OpcodeMapAndOperandFormats : Prop :=
  (∀ (n a b : Word) (h : Half) (q : BitVec 4) (f : Byte),
    Carries 0x01#8 n 0#32 [] (.new n) ∧
    Carries 0x20#8 (h.setWidth 32) 0#32 [] (.setSrcPort h) ∧
    Carries 0x21#8 (h.setWidth 32) 0#32 [] (.setDstPort h) ∧
    Carries 0x22#8 n 0#32 [] (.setSeq n) ∧
    Carries 0x23#8 n 0#32 [] (.setAck n) ∧
    Carries 0x24#8 (q.setWidth 32) 0#32 [] (.setDataOffset q) ∧
    Carries 0x25#8 (f.setWidth 32) 0#32 [] (.setFlag f) ∧
    Carries 0x26#8 (h.setWidth 32) 0#32 [] (.setWindow h) ∧
    Carries 0x27#8 (h.setWidth 32) 0#32 [] (.setChecksum h) ∧
    Carries 0x30#8 a b [] (.isCorrectChecksum a b) ∧
    Carries 0x31#8 a b [] (.csumCompute a b)) ∧
  (∀ data : List Byte, DataFits data →
    Carries 0x02#8 0#32 0#32 data (.wrap data) ∧ Carries 0x28#8 0#32 0#32 data (.setPayload data)) ∧
  (∀ p ∈ ([(0x03, .discard), (0x04, .emit), (0x05, .status), (0x10, .getSrcPort), (0x11, .getDstPort),
      (0x12, .getSeq), (0x13, .getAck), (0x14, .getDataOffset), (0x15, .getFlag), (0x16, .getWindow),
      (0x17, .getChecksum)] : List (Byte × Instr)),
    Carries p.1 0#32 0#32 [] p.2)

/-- R70, R73: each command has one meaning. What the decoder accepts is exactly the record of the
instruction it reads, and that instruction is well-formed. -/
def Obligations.EncodeOfDecodeIsTheCommand : Prop :=
  ∀ (c : Command) (i : Instr), decode c = .ok i → encode i = c ∧ WellFormed i = true

/-- R72, R73: the decoder, written from the operand formats, agrees with the mask and match of every row of
the opcode table: a record satisfies a row (and has no `DATA` unless the row takes it) exactly when it
decodes to an operation of that row's mnemonic. -/
def Obligations.DecoderAgreesWithTheOpcodeTable : Prop :=
  ∀ (c : Command) (row : OpcodeRow), row ∈ opcodeTable → DataFits c.data →
    ((row.accepts c.word ∧ (row.takesData = true ∨ c.data = [])) ↔
      ∃ i : Instr, decode c = .ok i ∧ mnemonicOf i = row.mnemonic)

/-- R72: no command word satisfies two rows of the opcode table. -/
def Obligations.OpcodeTableRowsAreDisjoint : Prop :=
  ∀ (w : CmdWord) (r q : OpcodeRow), r ∈ opcodeTable → q ∈ opcodeTable →
    r.accepts w → q.accepts w → r = q

/-- R72, R144: a command that is not well-formed raises `IllegalCommand` and changes nothing, whatever the
state (so before every other check); a well-formed one is executed. -/
def Obligations.IllFormedCommandRaisesIllegalCommand : Prop :=
  ∀ (s : State) (c : Command) (rest : List PortEvent),
    s.cmdPort = .command c :: rest → DataFits c.data →
    (¬ CommandOk c →
      step s = .next (({ s with cmdPort := rest } : State).respond (errResponse 4#4))) ∧
    (CommandOk c →
      ∃ i : Instr, decode c = .ok i ∧ step s = exec i { s with cmdPort := rest })

/-- R75: the 232 unassigned opcodes raise `IllegalCommand` and change nothing, whatever the operands and
`DATA`; and every command word, with every `DATA`, has an outcome. -/
def Obligations.UnassignedOpcodeRaisesIllegalCommand : Prop :=
  ((List.range 256).filter fun n => decide (Unassigned n)).length = 232 ∧
  ∀ (s : State) (c : Command) (rest : List PortEvent),
    s.cmdPort = .command c :: rest → DataFits c.data →
    (Unassigned c.op.toNat →
      step s = .next (({ s with cmdPort := rest } : State).respond (errResponse 4#4))) ∧
    ∃ t : State, step s = .next t

/-- R67, R73: command words written out from the spec's encodings decode to the operations they stand for.
R72 (b) and (c) make the last two commands ill-formed; the names the decoder gives for that,
`unusedOperandBits` and `unexpectedData`, are the model's choice (DESIGN CHOICE, log entry 11). -/
def Obligations.SampleCommandWordsDecode : Prop :=
  decode ⟨0x010000000400000000#72, []⟩ = .ok (.new 4#32) ∧
  decode ⟨0x020000000000000000#72, [0xAA#8]⟩ = .ok (.wrap [0xAA#8]) ∧
  decode ⟨0x170000000000000000#72, []⟩ = .ok .getChecksum ∧
  decode ⟨0x240000000500000000#72, []⟩ = .ok (.setDataOffset 5#4) ∧
  decode ⟨0x221234567800000000#72, []⟩ = .ok (.setSeq 0x12345678#32) ∧
  decode ⟨0x30C0A80001C0A80002#72, []⟩ = .ok (.isCorrectChecksum 0xC0A80001#32 0xC0A80002#32) ∧
  decode ⟨0x240000001000000000#72, []⟩ = .error .unusedOperandBits ∧
  decode ⟨0x050000000000000000#72, [0#8]⟩ = .error .unexpectedData

/-! ### The step, the ports, reset -/

/-- R65, R73: a step runs the decoded instruction. When the next event is a command that decodes to `i`, the
step is `exec i` with that command taken from the port, and nothing around it. -/
def Obligations.StepRunsTheDecodedCommand : Prop :=
  ∀ (s : State) (c : Command) (rest : List PortEvent) (i : Instr),
    s.cmdPort = .command c :: rest → decode c = .ok i →
    step s = exec i { s with cmdPort := rest }

/-- R65: one command is accepted, executed completely and answered by exactly one response, in the order
accepted, before the next is accepted. -/
def Obligations.EveryCommandIsAnsweredByExactlyOneResponse : Prop :=
  ∀ (s : State) (c : Command) (rest : List PortEvent),
    s.cmdPort = .command c :: rest → DataFits c.data →
    ∃ (t : State) (r : Response), step s = .next t ∧ t.cmdPort = rest ∧ t.rspPort = s.rspPort ++ [r]

/-- R173, R9: every operation completes in every state: with one response, leaving the pending commands and
the block's parameter alone (R162). -/
def Obligations.EveryOperationCompletes : Prop :=
  ∀ (i : Instr) (s : State),
    ∃ (t : State) (r : Response), exec i s = .next t ∧
      t.rspPort = s.rspPort ++ [r] ∧ t.cmdPort = s.cmdPort ∧ t.cfg = s.cfg

/-- R51, R65: program order of one command stream. Any sequence of pending commands is answered, one step and
one response a command, in the order presented, and then nothing is pending: after `k` steps the first `k`
commands have been answered by the first `k` responses, the others are pending in order, and the next step,
which takes command `k`, adds response `k`. -/
def Obligations.EveryPendingCommandIsAnsweredInOrder : Prop :=
  ∀ (cs : List Command) (s : State), s.cmdPort = cs.map .command → (∀ c ∈ cs, DataFits c.data) →
    ∃ (t : State) (rs : List Response), Sys2Proof.core.run cs.length s = .next t ∧
      t.cmdPort = [] ∧ t.rspPort = s.rspPort ++ rs ∧ rs.length = cs.length ∧
      ∀ (k : Nat) (h : k < rs.length), ∃ u v : State,
        Sys2Proof.core.run k s = .next u ∧ u.cmdPort = (cs.drop k).map .command ∧
        u.rspPort = s.rspPort ++ rs.take k ∧
        step u = .next v ∧ v.rspPort = u.rspPort ++ [rs[k]]

/-- The model's choice (DESIGN CHOICE, log entry 5), from R66's bound: a pending record whose `DATA` is
longer than 65535 bytes is no command record, and the model stops on it; it stops nowhere else. -/
def Obligations.OnlyAnOversizedRecordStopsTheModel : Prop :=
  ∀ s : State,
    (∀ (c : Command) (rest : List PortEvent), s.cmdPort = .command c :: rest → ¬ DataFits c.data →
      step s = .fault .oversizedData) ∧
    ((∃ t : State, step s = .next t) ∨
      ∃ (c : Command) (rest : List PortEvent), s.cmdPort = .command c :: rest ∧ ¬ DataFits c.data)

/-- R160: after reset `VALID = 0`, `PLEN = 0`, no command is in progress and no response is pending. -/
def Obligations.ResetHoldsNoSegment : Prop :=
  State.reset.valid = false ∧ State.reset.plen = 0#16 ∧
    State.reset.cmdPort = [] ∧ State.reset.rspPort = []

/-- R161, R162: reset, between commands or while a command is being executed, gives the reset state from
any state: no response is produced for an abandoned command, none is pending, and the parameter is as
before. That the host's later events stay pending is the model's choice (log entry 7). -/
def Obligations.ResetAbandonsTheCommand : Prop :=
  ∀ (s : State) (e : PortEvent) (rest : List PortEvent),
    s.cmdPort = e :: rest → (e = .reset ∨ ∃ c : Command, e = .resetDuring c) →
    ∃ t : State, step s = .next t ∧
      t.valid = State.reset.valid ∧ t.plen = State.reset.plen ∧ t.rspPort = State.reset.rspPort ∧
      t.cfg = s.cfg ∧ t.cmdPort = rest

/-- R158: with no command pending the block keeps its state, and only DISCARD, NEW and WRAP (beside reset)
end a segment's life: no other operation changes `VALID` or `PLEN` (R21, R22, R32). -/
def Obligations.IdleAndMostOperationsKeepTheSegment : Prop :=
  (∀ s : State, s.cmdPort = [] → step s = .next s) ∧
  ∀ (i : Instr) (s t : State), exec i s = .next t → changesSegment i = false →
    t.valid = s.valid ∧ t.plen = s.plen

/-! ### The invariant -/

/-- R160, R21: the invariant holds after reset. Its clauses about memory rest on the model's choices, not on a
rule: the canonical form (log entry 6), and that reset lists no byte (log entry 2). -/
def Obligations.ResetSatisfiesTheInvariant : Prop := Inv State.reset

/-- R20, R21, R68, R85 and the canonical form of memory (the model's, log entry 6): every step keeps the
invariant. -/
def Obligations.EveryStepKeepsTheInvariant : Prop :=
  ∀ s t : State, Inv s → step s = .next t → Inv t

/-! ### Construction and lifecycle -/

/-- R80: NEW. -/
def Obligations.NewCreatesAZeroFilledSegment : Prop :=
  ∀ (n : Word) (s : State),
    Carries 0x01#8 n 0#32 [] (.new n) ∧
    (s.cfg.payloadMax.val < n.toNat → exec (.new n) s = .next (s.respond (errResponse 5#4))) ∧
    (n.toNat ≤ s.cfg.payloadMax.val →
      ∃ t : State, exec (.new n) s = .next t ∧
        t.valid = true ∧ t.plen.toNat = n.toNat ∧ (∀ a, a < 20 + n.toNat → byteAt t a = 0) ∧
        t.rspPort = s.rspPort ++ [okResponse 0#32 []] ∧ t.cfg = s.cfg ∧ t.cmdPort = s.cmdPort ∧
        ∀ g ∈ getters, exec g t = .next (t.respond (okResponse 0#32 [])))

/-- R81, R82: WRAP. The length is the only thing checked. -/
def Obligations.WrapTakesTheBytesAndChecksOnlyTheLength : Prop :=
  ∀ (data : List Byte) (s : State),
    (DataFits data → Carries 0x02#8 0#32 0#32 data (.wrap data)) ∧
    (data.length < 20 → exec (.wrap data) s = .next (s.respond (errResponse 1#4))) ∧
    (20 + s.cfg.payloadMax.val < data.length →
      exec (.wrap data) s = .next (s.respond (errResponse 5#4))) ∧
    (20 ≤ data.length → data.length ≤ 20 + s.cfg.payloadMax.val →
      ∃ t : State, exec (.wrap data) s = .next t ∧
        t.valid = true ∧ t.plen.toNat = data.length - 20 ∧
        (∀ (a : Nat) (h : a < data.length), Memory.read t.buf a = data[a]) ∧
        t.rspPort = s.rspPort ++ [okResponse 0#32 []] ∧ t.cfg = s.cfg ∧ t.cmdPort = s.cmdPort)

/-- R83: DISCARD succeeds in every state and leaves `VALID` and `PLEN` as reset does; STATUS then answers 0,
and every operation that would read or write the old bytes raises `NoSegment`. Where no segment was held it
changes nothing observable. (What `BUF` holds afterwards is unspecified, and this says nothing of it.) -/
def Obligations.DiscardReleasesTheSegment : Prop :=
  Carries 0x03#8 0#32 0#32 [] .discard ∧
  ∀ s : State,
    ∃ t : State, exec .discard s = .next t ∧ t.valid = false ∧ t.plen = 0#16 ∧
      t.rspPort = s.rspPort ++ [okResponse 0#32 []] ∧ t.cfg = s.cfg ∧ t.cmdPort = s.cmdPort ∧
      exec .status t = .next (t.respond (okResponse 0#32 [])) ∧
      (∀ i : Instr, needsSegment i = true → exec i t = .next (t.respond (errResponse 3#4))) ∧
      (s.valid = false → s.plen = 0#16 → SameToHost (s.respond (okResponse 0#32 [])) t)

/-- R84: EMIT answers the `20 + PLEN` bytes of the segment, index 0 first, and changes nothing; after WRAP of
bytes it returns those bytes, after `NEW n` it returns `20 + n` zero bytes. -/
def Obligations.EmitReadsTheWholeBuffer : Prop :=
  Carries 0x04#8 0#32 0#32 [] .emit ∧
  ∀ s : State,
    (s.valid = true →
      ∃ dout : List Byte, exec .emit s = .next (s.respond (okResponse 0#32 dout)) ∧
        dout.length = 20 + s.plen.toNat ∧
        ∀ (a : Nat) (h : a < dout.length), dout[a] = Memory.read s.buf a) ∧
    (s.valid = false → exec .emit s = .next (s.respond (errResponse 3#4))) ∧
    (∀ data : List Byte, 20 ≤ data.length → data.length ≤ 20 + s.cfg.payloadMax.val →
      ∃ t : State, exec (.wrap data) s = .next t ∧
        exec .emit t = .next (t.respond (okResponse 0#32 data))) ∧
    ∀ n : Word, n.toNat ≤ s.cfg.payloadMax.val →
      ∃ t : State, exec (.new n) s = .next t ∧
        exec .emit t = .next (t.respond (okResponse 0#32 (List.replicate (20 + n.toNat) 0#8)))

/-- R85, R32: STATUS, in every state: `RES[16] = VALID`, `RES[15:0] = PLEN`, the rest zero; with the
invariant, 0 where no segment is held. -/
def Obligations.StatusReportsValidAndPlen : Prop :=
  Carries 0x05#8 0#32 0#32 [] .status ∧
  ∀ s : State,
    exec .status s =
      .next (s.respond (okResponse (BitVec.ofNat 32 ((if s.valid then 65536 else 0) + s.plen.toNat)) [])) ∧
    (Inv s → s.valid = false → exec .status s = .next (s.respond (okResponse 0#32 [])))

/-- R23, R171: a successful NEW or WRAP replaces the segment held before, whose contents are lost: the
outcome does not depend on what was held. -/
def Obligations.NewAndWrapForgetTheOldSegment : Prop :=
  ∀ s u : State, s.cfg = u.cfg → s.cmdPort = u.cmdPort → s.rspPort = u.rspPort →
    (∀ n : Word, n.toNat ≤ s.cfg.payloadMax.val → exec (.new n) s = exec (.new n) u) ∧
    ∀ data : List Byte, 20 ≤ data.length → data.length ≤ 20 + s.cfg.payloadMax.val →
      exec (.wrap data) s = exec (.wrap data) u

/-! ### The memory primitives -/

/-- R8, R41: MemRead and MemWrite, most significant byte at the lowest index; a write changes no other
byte. -/
def Obligations.MemoryPrimitivesAreBigEndian : Prop :=
  ∀ (s : State) (o : Nat) (v : Half) (w : Word),
    (s.memRead1 o).toNat = byteAt s o ∧
    (s.memRead2 o).toNat = byteAt s o * 256 + byteAt s (o + 1) ∧
    (s.memRead4 o).toNat =
      byteAt s o * 2 ^ 24 + byteAt s (o + 1) * 2 ^ 16 + byteAt s (o + 2) * 2 ^ 8 + byteAt s (o + 3) ∧
    (∀ b : Byte, Memory.read (s.memWrite o [b]).buf o = b ∧
      ∀ a, a ≠ o → Memory.read (s.memWrite o [b]).buf a = Memory.read s.buf a) ∧
    (∀ k, k < 2 →
      Memory.read (s.memWrite2 o v).buf (o + k) = v.extractLsb' (8 * (2 - k - 1)) 8) ∧
    (∀ k, k < 4 →
      Memory.read (s.memWrite4 o w).buf (o + k) = w.extractLsb' (8 * (4 - k - 1)) 8) ∧
    (∀ a, a < o ∨ o + 2 ≤ a → Memory.read (s.memWrite2 o v).buf a = Memory.read s.buf a) ∧
    (∀ a, a < o ∨ o + 4 ≤ a → Memory.read (s.memWrite4 o w).buf a = Memory.read s.buf a)

/-! ### Accessors -/

/-- R90, R91, R92, R97, R98: the four 16-bit getters. -/
def Obligations.SixteenBitGettersReturnTheirField : Prop :=
  GetterReturns 0x10#8 .getSrcPort (fun s => byteAt s 0 * 256 + byteAt s 1) ∧
  GetterReturns 0x11#8 .getDstPort (fun s => byteAt s 2 * 256 + byteAt s 3) ∧
  GetterReturns 0x16#8 .getWindow (fun s => byteAt s 14 * 256 + byteAt s 15) ∧
  GetterReturns 0x17#8 .getChecksum (fun s => byteAt s 16 * 256 + byteAt s 17)

/-- R90, R93, R94: the two 32-bit getters. -/
def Obligations.ThirtyTwoBitGettersReturnTheirField : Prop :=
  GetterReturns 0x12#8 .getSeq
    (fun s => byteAt s 4 * 2 ^ 24 + byteAt s 5 * 2 ^ 16 + byteAt s 6 * 2 ^ 8 + byteAt s 7) ∧
  GetterReturns 0x13#8 .getAck
    (fun s => byteAt s 8 * 2 ^ 24 + byteAt s 9 * 2 ^ 16 + byteAt s 10 * 2 ^ 8 + byteAt s 11)

/-- R90, R95, R96: the data offset is the high nibble of byte 12, the flags all of byte 13. -/
def Obligations.NibbleAndByteGettersReturnTheirField : Prop :=
  GetterReturns 0x14#8 .getDataOffset (fun s => byteAt s 12 / 16) ∧
  GetterReturns 0x15#8 .getFlag (fun s => byteAt s 13)

/-- R27, R24: the getters are slices of the header seen as one 160-bit vector, the first byte most
significant. -/
def Obligations.GettersAreSlicesOfTheHeader : Prop :=
  ∀ (s : State) (hdr : BitVec 160), s.valid = true →
    (∀ k, k < 20 → hdr.extractLsb' (152 - 8 * k) 8 = Memory.read s.buf k) →
    exec .getSrcPort s = .next (s.respond (okResponse ((hdr.extractLsb' 144 16).setWidth 32) [])) ∧
    exec .getDstPort s = .next (s.respond (okResponse ((hdr.extractLsb' 128 16).setWidth 32) [])) ∧
    exec .getSeq s = .next (s.respond (okResponse (hdr.extractLsb' 96 32) [])) ∧
    exec .getAck s = .next (s.respond (okResponse (hdr.extractLsb' 64 32) [])) ∧
    exec .getDataOffset s = .next (s.respond (okResponse ((hdr.extractLsb' 60 4).setWidth 32) [])) ∧
    exec .getFlag s = .next (s.respond (okResponse ((hdr.extractLsb' 48 8).setWidth 32) [])) ∧
    exec .getWindow s = .next (s.respond (okResponse ((hdr.extractLsb' 32 16).setWidth 32) [])) ∧
    exec .getChecksum s = .next (s.respond (okResponse ((hdr.extractLsb' 16 16).setWidth 32) []))

/-- R48: a reading operation changes no state, and repeating it gives the same response. -/
def Obligations.ReadersHaveNoSideEffect : Prop :=
  ∀ (i : Instr) (s : State), isReader i = true →
    ∃ r : Response, exec i s = .next (s.respond r) ∧
      exec i (s.respond r) = .next ((s.respond r).respond r)

/-! ### Mutators -/

/-- R100, R101, R102, R107, R108: the four 16-bit setters. -/
def Obligations.SixteenBitSettersStoreTheirOperand : Prop :=
  SetterStores 0x20#8 .setSrcPort .getSrcPort 0 2 ∧
  SetterStores 0x21#8 .setDstPort .getDstPort 2 2 ∧
  SetterStores 0x26#8 .setWindow .getWindow 14 2 ∧
  SetterStores 0x27#8 .setChecksum .getChecksum 16 2

/-- R100, R103, R104: the two 32-bit setters. -/
def Obligations.ThirtyTwoBitSettersStoreTheirOperand : Prop :=
  SetterStores 0x22#8 .setSeq .getSeq 4 4 ∧ SetterStores 0x23#8 .setAck .getAck 8 4

/-- R100, R106: SET_FLAG replaces all eight bits of byte 13. -/
def Obligations.SetFlagReplacesTheFlagsByte : Prop := SetterStores 0x25#8 .setFlag .getFlag 13 1

/-- R105: SET_DATA_OFFSET ORs its operand into the high nibble of byte 12: the new data offset is the old
one OR the operand, so it is the operand exactly when the old one has no bit outside it; a second call
accumulates; the reserved nibble and every other byte stay, and without a segment it raises `NoSegment`. No
operation but NEW and WRAP (and DISCARD, which ends the segment) clears a bit of that nibble. -/
def Obligations.SetDataOffsetAccumulates : Prop :=
  (∀ (s : State) (a : BitVec 4),
    Carries 0x24#8 (a.setWidth 32) 0#32 [] (.setDataOffset a) ∧
    (s.valid = true →
      ∃ t : State, exec (.setDataOffset a) s = .next t ∧ OnlyBufWritten s t ∧
        Memory.read t.buf 12 = Memory.read s.buf 12 ||| (a.setWidth 8 <<< 4) ∧
        byteAt t 12 % 16 = byteAt s 12 % 16 ∧
        (∀ k, k ≠ 12 → Memory.read t.buf k = Memory.read s.buf k) ∧
        exec .getDataOffset t =
          .next (t.respond (okResponse (BitVec.ofNat 32 (byteAt s 12 / 16 ||| a.toNat)) [])) ∧
        (exec .getDataOffset t = .next (t.respond (okResponse (a.setWidth 32) [])) ↔
          byteAt s 12 / 16 ||| a.toNat = a.toNat) ∧
        ∀ b : BitVec 4, ∃ u : State, exec (.setDataOffset b) t = .next u ∧
          exec .getDataOffset u =
            .next (u.respond
              (okResponse (BitVec.ofNat 32 (byteAt s 12 / 16 ||| a.toNat ||| b.toNat)) []))) ∧
    (s.valid = false → exec (.setDataOffset a) s = .next (s.respond (errResponse 3#4)))) ∧
  ∀ (i : Instr) (s t : State), exec i s = .next t → changesSegment i = false →
    byteAt t 12 / 16 &&& byteAt s 12 / 16 = byteAt s 12 / 16

/-- R26, R24: the urgent pointer (bytes 18 and 19) and the reserved nibble of byte 12 are written by NEW and
WRAP only (DISCARD ends the segment). -/
def Obligations.UrgentAndReservedAreWrittenOnlyByConstruction : Prop :=
  ∀ (i : Instr) (s t : State), exec i s = .next t → changesSegment i = false →
    Memory.read t.buf 18 = Memory.read s.buf 18 ∧ Memory.read t.buf 19 = Memory.read s.buf 19 ∧
      byteAt t 12 % 16 = byteAt s 12 % 16

/-- R109: SET_PAYLOAD copies exactly `PLEN` bytes from offset 20, touching no header byte, or fails and
writes nothing. -/
def Obligations.SetPayloadCopiesExactlyPlenBytes : Prop :=
  ∀ (data : List Byte) (s : State),
    (DataFits data → Carries 0x28#8 0#32 0#32 data (.setPayload data)) ∧
    (s.valid = false → exec (.setPayload data) s = .next (s.respond (errResponse 3#4))) ∧
    (s.valid = true → data.length ≠ s.plen.toNat →
      exec (.setPayload data) s = .next (s.respond (errResponse 2#4))) ∧
    (s.valid = true → data.length = s.plen.toNat →
      ∃ t : State, exec (.setPayload data) s = .next t ∧ OnlyBufWritten s t ∧
        (∀ (k : Nat) (h : k < data.length), Memory.read t.buf (20 + k) = data[k]) ∧
        (∀ a, a < 20 ∨ 20 + data.length ≤ a → Memory.read t.buf a = Memory.read s.buf a) ∧
        ∃ u : State, exec (.setPayload data) t = .next u ∧ OnlyBufWritten t u ∧ SameBytes t u)

/-- R111, R25: a setter changes its own view and no other: every getter but its own answers after it what
it answered before. (That its own getter answers the operand is the setters' own statements; the payload
setter has no getter and so changes none.) -/
def Obligations.SettersLeaveEveryOtherFieldAlone : Prop :=
  ∀ (i : Instr) (s t : State), isSetter i = true → exec i s = .next t →
    ∀ g ∈ getters, getterOf i ≠ some g →
      ∃ r : Response, exec g s = .next (s.respond r) ∧ exec g t = .next (t.respond r)

/-- R48: every setter, SET_DATA_OFFSET with the same value among them, is idempotent: run a second time with
the same operand it changes no byte. -/
def Obligations.SettersAreIdempotent : Prop :=
  ∀ (i : Instr) (s t : State), isSetter i = true → exec i s = .next t →
    ∃ u : State, exec i t = .next u ∧ SameBytes t u ∧ u.valid = t.valid ∧ u.plen = t.plen

/-! ### Errors -/

/-- R143, R22: every operation that needs a segment raises `NoSegment` without one, and no other operation
does in any state. -/
def Obligations.NoSegmentIsRaisedExactlyWithoutASegment : Prop :=
  ∀ (i : Instr) (s : State),
    (needsSegment i = true → s.valid = false → exec i s = .next (s.respond (errResponse 3#4))) ∧
    (∀ (t : State) (r : Response), exec i s = .next t → t.rspPort = s.rspPort ++ [r] →
      r.err = 3#4 → needsSegment i = true ∧ s.valid = false)

/-- R149: an error changes no state: the failing command is consumed, the response says `RES = 0` and
`DOUT` empty, and all else is as before. -/
def Obligations.AnErrorChangesNoState : Prop :=
  ∀ (s t : State) (c : Command) (rest : List PortEvent) (r : Response),
    s.cmdPort = .command c :: rest → step s = .next t → t.rspPort = s.rspPort ++ [r] → r.err ≠ 0#4 →
    r = errResponse r.err ∧ t = ({ s with cmdPort := rest } : State).respond r

/-- R148: the checks are made in a fixed order and the first that fails decides the response:
well-formedness, then the segment, then the operation's own condition. -/
def Obligations.ChecksAreMadeInTheFixedOrder : Prop :=
  ∀ (s : State) (c : Command) (rest : List PortEvent),
    s.cmdPort = .command c :: rest → DataFits c.data →
    ∃ (t : State) (r : Response), step s = .next t ∧ t.rspPort = s.rspPort ++ [r] ∧
      (¬ CommandOk c → r.err = 4#4) ∧
      (∀ i : Instr, decode c = .ok i →
        r.err = if needsSegment i = true ∧ s.valid = false then 3#4 else ownCheck i s)

/-- R159, R140: which operation can answer which code; codes 7 to 15 are never produced. -/
def Obligations.EachOperationRaisesOnlyItsErrors : Prop :=
  ∀ (i : Instr) (s t : State) (r : Response), exec i s = .next t → t.rspPort = s.rspPort ++ [r] →
    r.err ∈ possibleCodes i ∧ r.err.toNat ≤ 6

/-- R68: the result is zero whenever the operation fails or returns no value, and `DOUT` is empty but for a
successful EMIT. -/
def Obligations.ResponsesHaveTheShapeOfTheRecord : Prop :=
  ∀ (i : Instr) (s t : State) (r : Response), exec i s = .next t → t.rspPort = s.rspPort ++ [r] →
    ResponseOk r ∧ (i ≠ .emit → r.dout = []) ∧
      ((changesSegment i = true ∨ isSetter i = true ∨ i = .emit) → r.res = 0#32)

/-- R33, R31: nothing but `VALID`, `PLEN` and `BUF` (and the parameter) influences an operation: the pending
commands and the responses already given change neither its response nor the state it leaves. -/
def Obligations.NoHiddenStateInfluencesAnOperation : Prop :=
  ∀ (i : Instr) (s t : State) (r : Response) (cs : List PortEvent) (rs : List Response),
    exec i s = .next t → t.rspPort = s.rspPort ++ [r] →
    exec i { s with cmdPort := cs, rspPort := rs } =
      .next { t with cmdPort := cs, rspPort := rs ++ [r] }

/-- R160, R22, R83: `BUF` is unobservable while no segment is held: two states that differ only in it are
carried by every step to two states that again differ at most so (and that are equal once a segment is
held), with the same responses. No choice of what `BUF` holds without a segment can be seen (log entry
2). -/
def Obligations.BufIsUnobservableWithoutASegment : Prop :=
  ∀ s u s' : State, SameToHost s u → step s = .next s' →
    ∃ u' : State, step u = .next u' ∧ SameToHost s' u'

/-! ### The checksum unit -/

/-- R120: word formation, an odd last byte being the high byte of a word whose low byte is zero. -/
def Obligations.WordsAreBigEndianAndPaddedRight : Prop :=
  ∀ bytes : List Byte,
    (words bytes).length = (bytes.length + 1) / 2 ∧
    ∀ (j : Nat) (h : j < (words bytes).length),
      (words bytes)[j].toNat =
        (bytes.getD (2 * j) 0#8).toNat * 256 + (bytes.getD (2 * j + 1) 0#8).toNat

/-- R121: ones-complement addition. -/
def Obligations.OnesComplementAdditionEndsAroundTheCarry : Prop :=
  ∀ a b : Half,
    (ocadd16 a b).toNat =
      (if a.toNat + b.toNat < 65536 then a.toNat + b.toNat else a.toNat + b.toNat - 65535) ∧
    ocadd16 a b = ocadd16 b a ∧ ocadd16 a 0#16 = a ∧
    (ocadd16 a b = 0#16 ↔ a = 0#16 ∧ b = 0#16) ∧
    (ocadd16 a b).toNat % 65535 = (a.toNat + b.toNat) % 65535

/-- R123: folding a wide sum to 16 bits; two passes suffice for 32 bits. -/
def Obligations.FoldReducesToSixteenBits : Prop :=
  (∀ n : Nat, fold n ≤ 0xFFFF ∧
    fold n = if 0xFFFF < n then fold (n % 65536 + n / 65536) else n) ∧
  ∀ n : Nat, n < 2 ^ 32 →
    (n % 65536 + n / 65536) % 65536 + (n % 65536 + n / 65536) / 65536 ≤ 0xFFFF

/-- R124, R125: the closed form of the ones-complement sum, its independence of the order of the words, and
of the shape of the adder tree: every mixture of end-around-carry adders, widening adders and folds over the
same words gives the same value. -/
def Obligations.OnesComplementSumIsOrderAndShapeIndependent : Prop :=
  (∀ ws : List Half,
    (ocsum ws).toNat = fold (plainSum ws) ∧
    ((∀ w ∈ ws, w = 0#16) → ocsum ws = 0#16) ∧
    ((∃ w ∈ ws, w ≠ 0#16) →
      1 ≤ (ocsum ws).toNat ∧ (ocsum ws).toNat % 65535 = plainSum ws % 65535)) ∧
  (∀ ws vs : List Half, ws.Perm vs → ocsum ws = ocsum vs) ∧
  ∀ t : AdderTree, fold t.value = (ocsum t.leaves).toNat

/-- R63, R71, R127: the pseudo-header, byte by byte, and its six words. -/
def Obligations.PseudoHeaderHasTheTwelveBytes : Prop :=
  ∀ (a b c d e f g h : Byte) (len : Nat), len ≤ 65535 →
    (pseudoHeader (a ++ b ++ c ++ d) (e ++ f ++ g ++ h) len).map BitVec.toNat =
      [a.toNat, b.toNat, c.toNat, d.toNat, e.toNat, f.toNat, g.toNat, h.toNat, 0, 6,
        len / 256, len % 256] ∧
    words (pseudoHeader (a ++ b ++ c ++ d) (e ++ f ++ g ++ h) len) =
      [a ++ b, c ++ d, e ++ f, g ++ h, 0x0006#16, BitVec.ofNat 16 len]

/-- R128: `CK` is the complement of the ones-complement sum of the pseudo-header and the segment with its
checksum field taken as zero, whether the words are formed of the two apart or of one after the other; the
bytes of the stored field do not enter. -/
def Obligations.ChecksumMasksTheStoredField : Prop :=
  ∀ (s : State) (a0 a1 : Word),
    s.checksum a0 a1 = 0xFFFF#16 ^^^ ocsum (summedWords s a0 a1) ∧
    (s.checksum a0 a1).toNat = 65535 - fold (plainSum (summedWords s a0 a1)) ∧
    words (pseudoHeader a0 a1 s.len ++ s.maskedSegment) = summedWords s a0 a1 ∧
    (summedWords s a0 a1)[14]? = some 0#16 ∧
    ∀ t : State, t.plen = s.plen →
      (∀ k, k ≠ 16 → k ≠ 17 → Memory.read t.buf k = Memory.read s.buf k) →
      t.checksum a0 a1 = s.checksum a0 a1

/-- R129, R147: IS_CORRECT_CHECKSUM answers 1 exactly when the stored field equals `CK`, 0 otherwise without
an error, and changes nothing. -/
def Obligations.IsCorrectChecksumComparesWithTheStoredField : Prop :=
  ∀ (s : State) (a0 a1 : Word),
    Carries 0x30#8 a0 a1 [] (.isCorrectChecksum a0 a1) ∧
    (s.valid = true → (s.checksum a0 a1).toNat = storedChecksum s → Validates s a0 a1) ∧
    (s.valid = true → (s.checksum a0 a1).toNat ≠ storedChecksum s → Mismatches s a0 a1) ∧
    (s.valid = false → exec (.isCorrectChecksum a0 a1) s = .next (s.respond (errResponse 3#4)))

/-- R130, R146: CSUM_COMPUTE answers `CK` while the stored field is zero and refuses otherwise; it writes
nothing. -/
def Obligations.CsumComputeRefusesAStaleField : Prop :=
  ∀ (s : State) (a0 a1 : Word),
    Carries 0x31#8 a0 a1 [] (.csumCompute a0 a1) ∧
    (s.valid = false → exec (.csumCompute a0 a1) s = .next (s.respond (errResponse 3#4))) ∧
    (s.valid = true → storedChecksum s ≠ 0 →
      exec (.csumCompute a0 a1) s = .next (s.respond (errResponse 6#4))) ∧
    (s.valid = true → storedChecksum s = 0 →
      exec (.csumCompute a0 a1) s =
        .next (s.respond (okResponse (BitVec.ofNat 32 (s.checksum a0 a1).toNat) [])))

/-- R131: `CK` is never `0xFFFF`; a stored `0xFFFF` is never correct; `CK` is zero exactly when the plain sum
of the words is a multiple of 65535. -/
def Obligations.ChecksumIsNeverAllOnes : Prop :=
  ∀ (s : State) (a0 a1 : Word),
    s.checksum a0 a1 ≠ 0xFFFF#16 ∧
    (s.valid = true → storedChecksum s = 0xFFFF → Mismatches s a0 a1) ∧
    (s.checksum a0 a1 = 0#16 ↔ 65535 ∣ plainSum (summedWords s a0 a1))

/-- R132: exchanging the two address operands changes nothing. -/
def Obligations.AddressOperandsCommute : Prop :=
  ∀ (s : State) (a0 a1 : Word),
    s.checksum a0 a1 = s.checksum a1 a0 ∧
    exec (.isCorrectChecksum a0 a1) s = exec (.isCorrectChecksum a1 a0) s ∧
    exec (.csumCompute a0 a1) s = exec (.csumCompute a1 a0) s

/-- R133: if a segment validates and exactly one of its bytes is then changed, it no longer does. -/
def Obligations.OneChangedByteIsDetected : Prop :=
  ∀ (s t : State) (a0 a1 : Word) (k : Nat),
    Validates s a0 a1 → s.valid = true → t.valid = true → t.plen = s.plen →
    k < 20 + s.plen.toNat → Memory.read t.buf k ≠ Memory.read s.buf k →
    (∀ a, a ≠ k → Memory.read t.buf a = Memory.read s.buf a) →
    Mismatches t a0 a1

/-- R134, R79: the three commands of SEAL succeed, after them the segment validates, and it keeps validating
while no byte of it changes. -/
def Obligations.SealMakesTheChecksumCorrect : Prop :=
  ∀ (s : State) (a0 a1 : Word), s.valid = true →
    ∃ (c : Half) (t u v : State),
      exec (.setChecksum 0#16) s = .next t ∧ OnlyBufWritten s t ∧
      exec (.csumCompute a0 a1) t = .next u ∧ u = t.respond (okResponse (c.setWidth 32) []) ∧
      exec (.setChecksum c) u = .next v ∧ OnlyBufWritten u v ∧ Validates v a0 a1 ∧
      ∀ w : State, w.valid = true → w.plen = v.plen → SameBytes v w → Validates w a0 a1

/-- R135: a segment that validates for one remote address fails for another exactly when the two addresses'
half sums differ modulo 65535; in particular when they differ in exactly one octet. -/
def Obligations.AddressSensitivityIsTheHalfSum : Prop :=
  ∀ (s : State) (a0 a1 b1 : Word), s.valid = true → Validates s a0 a1 →
    (Mismatches s a0 b1 ↔ halfSum a1 % 65535 ≠ halfSum b1 % 65535) ∧
    (¬ Mismatches s a0 b1 → Validates s a0 b1) ∧
    (∀ k, k < 4 → a1.extractLsb' (8 * k) 8 ≠ b1.extractLsb' (8 * k) 8 →
      (∀ j, j < 4 → j ≠ k → a1.extractLsb' (8 * j) 8 = b1.extractLsb' (8 * j) 8) →
      Mismatches s a0 b1)

/-- R136: the test for a sum of `0xFFFF` agrees with this block but where the sum and the stored field are
both `0xFFFF`; there this block answers 0. -/
def Obligations.SumToAllOnesTestIsNotThisBlocks : Prop :=
  ∀ (s : State) (a0 a1 : Word) (c : Half), s.valid = true → storedChecksum s = c.toNat →
    (ocadd16 (ocsum (summedWords s a0 a1)) c = 0xFFFF#16 ↔
      Validates s a0 a1 ∨ (ocsum (summedWords s a0 a1) = 0xFFFF#16 ∧ c = 0xFFFF#16)) ∧
    (ocsum (summedWords s a0 a1) = 0xFFFF#16 → c = 0xFFFF#16 → Mismatches s a0 a1)
end

