-- ==== Sys2Proof/Laws/Memory.lean ====
section
/-! SUPPORT. Memory by byte: a read after a write, every write keeps the canonical form and the bounds of
what is listed, and two memories in canonical form that read alike are equal. -/

namespace Sys2Proof.Laws

open Sys2Proof.Machine

@[simp] theorem read_nil (a : Nat) : Memory.read [] a = 0#8 := rfl

@[simp] theorem read_cons (c : Host.Cell) (m : Memory) (a : Nat) :
    Memory.read (c :: m) a = if c.1 = a then c.2 else Memory.read m a := rfl

/-- A byte is zero wherever every listed address is another. -/
theorem read_eq_zero {m : Memory} {a : Nat} (h : ∀ c ∈ m, c.1 ≠ a) : Memory.read m a = 0#8 := by
  induction m with
  | nil => rfl
  | cons c m ih =>
    simp only [List.mem_cons, forall_eq_or_imp] at h
    simp [h.1, ih h.2]

theorem erase_cons_eq {c : Host.Cell} {m : Memory} {a : Nat} (h : c.1 = a) :
    Memory.erase (c :: m) a = Memory.erase m a := by
  simp [Memory.erase, h]

theorem erase_cons_ne {c : Host.Cell} {m : Memory} {a : Nat} (h : c.1 ≠ a) :
    Memory.erase (c :: m) a = c :: Memory.erase m a := by
  simp [Memory.erase, h]

theorem read_erase (m : Memory) (a b : Nat) :
    Memory.read (Memory.erase m a) b = if b = a then 0#8 else Memory.read m b := by
  induction m with
  | nil => simp [Memory.erase]
  | cons c m ih =>
    by_cases hc : c.1 = a
    · rw [erase_cons_eq hc, ih, read_cons]
      by_cases hb : b = a
      · simp [hb]
      · rw [if_neg hb, if_neg hb, if_neg (by omega)]
    · rw [erase_cons_ne hc, read_cons, read_cons, ih]
      by_cases hb : b = a
      · rw [if_pos hb, if_pos hb, if_neg (by omega)]
      · rw [if_neg hb, if_neg hb]

theorem read_insert (m : Memory) (a b : Nat) (v : Byte) (h : ∀ c ∈ m, c.1 ≠ a) :
    Memory.read (Memory.insert m a v) b = if b = a then v else Memory.read m b := by
  induction m with
  | nil => simp [Memory.insert, eq_comm]
  | cons c m ih =>
    simp only [List.mem_cons, forall_eq_or_imp] at h
    unfold Memory.insert
    split
    · simp [eq_comm]
    · by_cases hb : c.1 = b
      · have : ¬ b = a := by omega
        simp [hb, this]
      · simp [hb, ih h.2]

/-- A byte read after a byte is written: the byte written there, elsewhere what was there. -/
theorem read_write (m : Memory) (a b : Nat) (v : Byte) :
    Memory.read (Memory.write m a v) b = if b = a then v else Memory.read m b := by
  unfold Memory.write
  split
  · rename_i hv
    rw [read_erase, hv]
  · rw [read_insert _ _ _ _ (by simp [Memory.erase]), read_erase]
    by_cases hb : b = a <;> simp [hb]

/-- What is listed after a write was listed before or is the byte written. -/
theorem mem_write {m : Memory} {a : Nat} {v : Byte} {c : Host.Cell} (h : c ∈ Memory.write m a v) :
    (c = (a, v) ∧ v ≠ 0#8) ∨ c ∈ m := by
  have ins : ∀ l : Memory, c ∈ Memory.insert l a v → c = (a, v) ∨ c ∈ l := fun l => by
    induction l with
    | nil => exact fun h => .inl (by simpa [Memory.insert] using h)
    | cons d l ih =>
      unfold Memory.insert
      split
      · simp
      · simp only [List.mem_cons]
        rintro (h | h)
        · exact .inr (.inl h)
        · exact (ih h).imp_right .inr
  unfold Memory.write at h
  split at h
  · exact .inr (List.mem_filter.1 h).1
  · rename_i hv
    rcases ins _ h with h | h
    · exact .inl ⟨h, hv⟩
    · exact .inr (List.mem_filter.1 h).1

theorem wf_tail {c : Host.Cell} {m : Memory} (h : Memory.wf (c :: m)) : Memory.wf m :=
  ⟨(List.pairwise_cons.1 h.1).2, fun d hd => h.2 d (List.mem_cons_of_mem _ hd)⟩

theorem wf_erase {m : Memory} (hm : Memory.wf m) (a : Nat) : Memory.wf (Memory.erase m a) :=
  ⟨hm.1.sublist List.filter_sublist, fun c hc => hm.2 c (List.mem_filter.1 hc).1⟩

theorem wf_insert {m : Memory} (hm : Memory.wf m) {a : Nat} {v : Byte} (hv : v ≠ 0#8)
    (ha : ∀ c ∈ m, c.1 ≠ a) : Memory.wf (Memory.insert m a v) := by
  induction m with
  | nil => exact ⟨by simp [Memory.insert], by simpa [Memory.insert] using hv⟩
  | cons c m ih =>
    simp only [List.mem_cons, forall_eq_or_imp] at ha
    have hlt := (List.pairwise_cons.1 hm.1).1
    have hw := ih (wf_tail hm) ha.2
    have below : ∀ l : Memory, (∀ d ∈ l, c.1 < d.1) → c.1 < a →
        ∀ d ∈ Memory.insert l a v, c.1 < d.1 := fun l hl hca => by
      induction l with
      | nil => simpa [Memory.insert] using hca
      | cons e l ihl =>
        simp only [List.mem_cons, forall_eq_or_imp] at hl
        unfold Memory.insert
        split
        · simpa using ⟨hca, hl.1, fun x y hx => hl.2 (x, y) hx⟩
        · simpa using ⟨hl.1, fun x y hx => ihl hl.2 (x, y) hx⟩
    unfold Memory.insert
    split
    · rename_i h
      refine ⟨List.pairwise_cons.2 ⟨fun d hd => ?_, hm.1⟩, fun d hd => ?_⟩
      · rcases List.mem_cons.1 hd with rfl | hd
        · exact h
        · exact h.trans (hlt d hd)
      · rcases List.mem_cons.1 hd with rfl | hd
        · exact hv
        · exact hm.2 d hd
    · refine ⟨List.pairwise_cons.2 ⟨below m hlt (by omega), hw.1⟩, fun d hd => ?_⟩
      rcases List.mem_cons.1 hd with rfl | hd
      · exact hm.2 _ List.mem_cons_self
      · exact hw.2 d hd

/-- A write keeps the canonical form. -/
theorem wf_write {m : Memory} (hm : Memory.wf m) (a : Nat) (v : Byte) :
    Memory.wf (Memory.write m a v) := by
  unfold Memory.write
  split
  · exact wf_erase hm a
  · rename_i hv
    exact wf_insert (wf_erase hm a) hv (by simp [Memory.erase])

theorem wf_writeBytes {m : Memory} (hm : Memory.wf m) (a : Nat) (bs : List Byte) :
    Memory.wf (Memory.writeBytes m a bs) := by
  induction bs generalizing m a with
  | nil => exact hm
  | cons b bs ih => exact ih (wf_write hm a b) (a + 1)

/-- The empty memory is in canonical form. -/
theorem wf_nil : Memory.wf [] := ⟨List.Pairwise.nil, by simp⟩

/-- The bytes read after a write of a sequence: those written, and elsewhere what was there. -/
theorem read_writeBytes (m : Memory) (a : Nat) (bs : List Byte) (b : Nat) :
    Memory.read (Memory.writeBytes m a bs) b =
      if a ≤ b ∧ b < a + bs.length then bs.getD (b - a) 0#8 else Memory.read m b := by
  induction bs generalizing m a with
  | nil =>
    have : ¬ (a ≤ b ∧ b < a + 0) := by omega
    simp only [Memory.writeBytes, List.length_nil, this, if_false]
  | cons v bs ih =>
    simp only [Memory.writeBytes, ih, read_write, List.length_cons]
    by_cases hb : b = a
    · subst hb
      have h1 : ¬ (b + 1 ≤ b ∧ b < b + 1 + bs.length) := by omega
      have h2 : b ≤ b ∧ b < b + (bs.length + 1) := by omega
      simp only [h1, h2, and_self, if_true, if_false, Nat.sub_self, List.getD_cons_zero]
    · by_cases hr : a + 1 ≤ b ∧ b < a + 1 + bs.length
      · have h2 : a ≤ b ∧ b < a + (bs.length + 1) := by omega
        have h3 : b - a = (b - (a + 1)) + 1 := by omega
        simp only [hr, h2, and_self, if_true, h3, List.getD_cons_succ]
      · have h2 : ¬ (a ≤ b ∧ b < a + (bs.length + 1)) := by omega
        simp only [hr, h2, hb, if_false]

/-- What is listed after a write of a sequence lies where it was written or was listed before. -/
theorem mem_writeBytes {m : Memory} {a : Nat} {bs : List Byte} {c : Host.Cell}
    (h : c ∈ Memory.writeBytes m a bs) : (a ≤ c.1 ∧ c.1 < a + bs.length) ∨ c ∈ m := by
  induction bs generalizing m a with
  | nil => exact .inr h
  | cons b bs ih =>
    rcases ih h with h | h
    · simp only [List.length_cons]
      omega
    · rcases mem_write h with ⟨rfl, -⟩ | h
      · simp
      · exact .inr h

@[simp] theorem length_readBytes (m : Memory) (a n : Nat) : (Memory.readBytes m a n).length = n := by
  simp [Memory.readBytes]

@[simp] theorem getElem_readBytes (m : Memory) (a n k : Nat) (h : k < (Memory.readBytes m a n).length) :
    (Memory.readBytes m a n)[k] = Memory.read m (a + k) := by
  simp [Memory.readBytes]

/-- Two memories in canonical form that read alike at every address are the same list. -/
theorem memory_ext {m n : Memory} (hm : Memory.wf m) (hn : Memory.wf n)
    (h : ∀ a, Memory.read m a = Memory.read n a) : m = n := by
  have zero : ∀ {c : Host.Cell} {l : Memory} {a : Nat}, Memory.wf (c :: l) → a ≤ c.1 →
      Memory.read l a = 0#8 := fun hl ha =>
    read_eq_zero fun d hd => by have := (List.pairwise_cons.1 hl.1).1 d hd; omega
  induction m generalizing n with
  | nil =>
    cases n with
    | nil => rfl
    | cons d n => exact absurd (by simpa using (h d.1).symm) (hn.2 d List.mem_cons_self)
  | cons c m ih =>
    cases n with
    | nil => exact absurd (by simpa using h c.1) (hm.2 c List.mem_cons_self)
    | cons d n =>
      have hc := h c.1
      have hd := h d.1
      simp only [read_cons, if_true] at hc hd
      have key : c.1 = d.1 := by
        rcases Nat.lt_trichotomy c.1 d.1 with hlt | heq | hgt
        · rw [if_neg (by omega), zero hn (by omega)] at hc
          exact absurd hc (hm.2 c List.mem_cons_self)
        · exact heq
        · rw [if_neg (by omega), zero hm (by omega)] at hd
          exact absurd hd.symm (hn.2 d List.mem_cons_self)
      have hcd : c = d := Prod.ext key (by simpa [key] using hc)
      subst hcd
      refine congrArg _ (ih (wf_tail hm) (wf_tail hn) fun a => ?_)
      by_cases ha : c.1 = a
      · rw [zero hm (by omega), zero hn (by omega)]
      · simpa [ha] using h a

end Sys2Proof.Laws
end

