-- ==== Sys2Proof/Laws/State.lean ====
section
/-! SUPPORT. One lemma per field per update of the state, each true by rfl. -/

namespace Sys2Proof.Laws

open Sys2Proof.Machine

variable (s : State) (r q : Response) (p : Half) (m : Memory) (o : Nat) (bs : List Byte)
  (cs : List PortEvent)

/-! `respond` -/

@[simp] theorem respond_cfg : (s.respond r).cfg = s.cfg := rfl
@[simp] theorem respond_valid : (s.respond r).valid = s.valid := rfl
@[simp] theorem respond_plen : (s.respond r).plen = s.plen := rfl
@[simp] theorem respond_buf : (s.respond r).buf = s.buf := rfl
@[simp] theorem respond_cmdPort : (s.respond r).cmdPort = s.cmdPort := rfl
@[simp] theorem respond_rspPort : (s.respond r).rspPort = s.rspPort ++ [r] := rfl
@[simp] theorem respond_len : (s.respond r).len = s.len := rfl
@[simp] theorem respond_segment : (s.respond r).segment = s.segment := rfl
@[simp] theorem respond_memRead1 : (s.respond r).memRead1 o = s.memRead1 o := rfl
@[simp] theorem respond_memRead2 : (s.respond r).memRead2 o = s.memRead2 o := rfl
@[simp] theorem respond_memRead4 : (s.respond r).memRead4 o = s.memRead4 o := rfl

/-! `holdSegment` -/

@[simp] theorem holdSegment_cfg : (s.holdSegment p m).cfg = s.cfg := rfl
@[simp] theorem holdSegment_valid : (s.holdSegment p m).valid = true := rfl
@[simp] theorem holdSegment_plen : (s.holdSegment p m).plen = p := rfl
@[simp] theorem holdSegment_buf : (s.holdSegment p m).buf = m := rfl
@[simp] theorem holdSegment_cmdPort : (s.holdSegment p m).cmdPort = s.cmdPort := rfl
@[simp] theorem holdSegment_rspPort : (s.holdSegment p m).rspPort = s.rspPort := rfl

/-! `holdNone` -/

@[simp] theorem holdNone_cfg : s.holdNone.cfg = s.cfg := rfl
@[simp] theorem holdNone_valid : s.holdNone.valid = false := rfl
@[simp] theorem holdNone_plen : s.holdNone.plen = 0#16 := rfl
@[simp] theorem holdNone_buf : s.holdNone.buf = [] := rfl
@[simp] theorem holdNone_cmdPort : s.holdNone.cmdPort = s.cmdPort := rfl
@[simp] theorem holdNone_rspPort : s.holdNone.rspPort = s.rspPort := rfl

/-! `memWrite` -/

@[simp] theorem memWrite_cfg : (s.memWrite o bs).cfg = s.cfg := rfl
@[simp] theorem memWrite_valid : (s.memWrite o bs).valid = s.valid := rfl
@[simp] theorem memWrite_plen : (s.memWrite o bs).plen = s.plen := rfl
@[simp] theorem memWrite_buf : (s.memWrite o bs).buf = Memory.writeBytes s.buf o bs := rfl
@[simp] theorem memWrite_cmdPort : (s.memWrite o bs).cmdPort = s.cmdPort := rfl
@[simp] theorem memWrite_rspPort : (s.memWrite o bs).rspPort = s.rspPort := rfl
@[simp] theorem memWrite_len : (s.memWrite o bs).len = s.len := rfl

/-! The ports -/

@[simp] theorem accept_nil (h : s.cmdPort = []) : s.accept = none := by
  simp [State.accept, h]

@[simp] theorem accept_cons {e : PortEvent} (h : s.cmdPort = e :: cs) :
    s.accept = some (e, { s with cmdPort := cs }) := by
  simp [State.accept, h]

end Sys2Proof.Laws
end

