-- ==== Sys2Proof/Laws/Ops.lean ====
section
/-! SUPPORT. What each shared operation can do, said once, and from it what an operation of the block can do:
raise an error and change nothing, take or release a segment, write one run of bytes of `BUF`, or read. -/

namespace Sys2Proof.Laws

open Sys2Proof.Machine Sys2Proof.Safety

variable {s : State}

/-! ### How an operation ends -/

theorem returnOk_eq (s : State) (res : Word) (dout : List Byte) :
    returnOk s res dout = .next (s.respond (okResponse res dout)) := rfl

theorem returnDone_eq (s : State) : returnDone s = .next (s.respond (okResponse 0#32 [])) := rfl

theorem raise_eq (s : State) (e : Error) : raise s e = .next (s.respond (errResponse e.code)) := rfl

theorem withSegment_valid (h : s.valid = true) (b : Host.Outcome State Fault Refusal) :
    withSegment s b = b := by
  simp [withSegment, h]

theorem withSegment_invalid (h : s.valid = false) (b : Host.Outcome State Fault Refusal) :
    withSegment s b = .next (s.respond (errResponse 3#4)) := by
  simp [withSegment, h, raise_eq, Error.code]

/-- Two responses added to the same list are the same response. -/
theorem respond_inj {rs : List Response} {r q : Response} (h : rs ++ [r] = rs ++ [q]) : r = q := by
  simpa using h

/-- Two outcomes that answer from the same state are the same when their responses are. -/
theorem next_respond_inj {r q : Response} :
    (Host.Outcome.next (s.respond r) : Host.Outcome State Fault Refusal) = .next (s.respond q) ↔ r = q :=
  ⟨fun h => respond_inj (congrArg State.rspPort (Host.Outcome.next.inj h)), fun h => h ▸ rfl⟩

/-! ### What an operation can do -/

/-- Where a setter writes and what: the offset and the bytes its meaning hands to `memWrite`. -/
def storeOf (i : Instr) (s : State) : Nat × List Byte :=
  match i with
  | .setSrcPort v => (0, bytesOfHalf v)
  | .setDstPort v => (2, bytesOfHalf v)
  | .setSeq v => (4, bytesOfWord v)
  | .setAck v => (8, bytesOfWord v)
  | .setDataOffset v => (12, [s.memRead1 12 ||| toHighNibble v])
  | .setFlag v => (13, [v])
  | .setWindow v => (14, bytesOfHalf v)
  | .setChecksum v => (16, bytesOfHalf v)
  | .setPayload data => (20, data)
  | .new _ | .wrap _ | .discard | .emit | .status => (0, [])
  | .getSrcPort | .getDstPort | .getSeq | .getAck => (0, [])
  | .getDataOffset | .getFlag | .getWindow | .getChecksum => (0, [])
  | .isCorrectChecksum _ _ | .csumCompute _ _ => (0, [])

/-- A setter without a segment, or with `DATA` of the wrong length, raises; else it writes its bytes. -/
theorem exec_setter {i : Instr} (h : isSetter i = true) (s : State) :
    (∃ e, exec i s = raise s e ∧ e.code = if s.valid = true then 2#4 else 3#4) ∨
      (s.valid = true ∧ exec i s = returnDone (s.memWrite (storeOf i s).1 (storeOf i s).2) ∧
        (storeOf i s).1 + (storeOf i s).2.length ≤ 20 + s.plen.toNat) := by
  by_cases hv : s.valid = true
  · cases i <;> simp only [isSetter, Bool.false_eq_true] at h <;>
      try (refine .inr ⟨hv, withSegment_valid hv _, ?_⟩
           simp [storeOf, bytesOfHalf, bytesOfWord]; try omega)
    rename_i data
    show (∃ e, withSegment s _ = _ ∧ _) ∨ (_ ∧ withSegment s _ = _ ∧ _)
    rw [withSegment_valid hv]
    split
    · rename_i hl
      exact .inr ⟨hv, rfl, by simp [storeOf, hl]⟩
    · exact .inl ⟨.payloadLengthMismatch, rfl, by simp [Error.code]⟩
  · have hf : s.valid = false := by simpa using hv
    refine .inl ⟨.noSegment, ?_, by simp [hf, Error.code]⟩
    cases i <;> simp only [isSetter, Bool.false_eq_true] at h <;> exact withSegment_invalid hf _

/-- A reading operation raises or answers; the state is as before. -/
theorem exec_reader {i : Instr} (h : isReader i = true) (s : State) :
    (∃ e, exec i s = raise s e) ∨ ∃ res dout, exec i s = returnOk s res dout := by
  by_cases hv : s.valid = true
  · cases i <;> simp [isReader, changesSegment, isSetter] at h <;>
      first
        | exact .inr ⟨_, _, withSegment_valid hv _⟩
        | exact .inr ⟨_, _, rfl⟩
        | skip
    show (∃ e, withSegment s _ = _) ∨ ∃ res dout, withSegment s _ = _
    rw [withSegment_valid hv]
    split
    · exact .inr ⟨_, _, rfl⟩
    · exact .inl ⟨.staleChecksum, rfl⟩
  · have hf : s.valid = false := by simpa using hv
    cases i <;> simp [isReader, changesSegment, isSetter] at h <;>
      first
        | exact .inr ⟨_, _, rfl⟩
        | exact .inl ⟨.noSegment, withSegment_invalid hf _⟩

/-- NEW, WRAP and DISCARD raise, hold a new segment of at most `PAYLOAD_MAX` payload bytes whose bytes are
inside it, or hold none. -/
theorem exec_changesSegment {i : Instr} (h : changesSegment i = true) (s : State) :
    (∃ e, exec i s = raise s e) ∨ exec i s = returnDone s.holdNone ∨
      ∃ p m, exec i s = returnDone (s.holdSegment p m) ∧ p.toNat ≤ s.cfg.payloadMax.val ∧
        Memory.wf m ∧ ∀ c ∈ m, c.1 < 20 + p.toNat := by
  have hmax := s.cfg.payloadMax.isLt
  cases i <;> simp only [changesSegment, Bool.false_eq_true] at h
  case new n =>
    show (∃ e, execNew n s = _) ∨ execNew n s = _ ∨ ∃ p m, execNew n s = _ ∧ _
    unfold execNew
    split
    · exact .inl ⟨_, rfl⟩
    · refine .inr (.inr ⟨_, _, rfl, ?_, wf_nil, by simp [Memory.zeroed]⟩)
      simp
      omega
  case wrap data =>
    show (∃ e, execWrap data s = _) ∨ execWrap data s = _ ∨ ∃ p m, execWrap data s = _ ∧ _
    unfold execWrap
    split
    · exact .inl ⟨_, rfl⟩
    · split
      · exact .inl ⟨_, rfl⟩
      · refine .inr (.inr ⟨_, _, rfl, ?_, wf_writeBytes wf_nil _ _, fun c hc => ?_⟩)
        · simp
          omega
        · rcases mem_writeBytes hc with hc | hc
          · simp [Config.hdrLen] at *
            omega
          · cases hc
  case discard => exact .inr (.inl rfl)

end Sys2Proof.Laws
end

