-- ==== Sys2Proof/Laws/Operands.lean ====
section
/-! SUPPORT. The bytes of a value and the value of its bytes, as numbers (`20_memory.md` R41), and a field
read after it is written. -/

namespace Sys2Proof.Laws

open Sys2Proof.Machine Sys2Proof.Safety

/-- Concatenation as a number. -/
theorem toNat_concat {n m : Nat} (a : BitVec n) (b : BitVec m) :
    (a ++ b).toNat = a.toNat * 2 ^ m + b.toNat := by
  rw [BitVec.toNat_append, ← Nat.shiftLeft_add_eq_or_of_lt b.isLt, Nat.shiftLeft_eq]

theorem toNat_halfOfBytes (a b : Byte) : (halfOfBytes a b).toNat = a.toNat * 256 + b.toNat :=
  toNat_concat a b

theorem toNat_wordOfBytes (a b c d : Byte) :
    (wordOfBytes a b c d).toNat =
      a.toNat * 2 ^ 24 + b.toNat * 2 ^ 16 + c.toNat * 2 ^ 8 + d.toNat := by
  have h1 := toNat_concat a b
  have h2 := toNat_concat (a ++ b) c
  have h3 : (wordOfBytes a b c d).toNat = _ := toNat_concat (a ++ b ++ c) d
  rw [h3, h2, h1]
  ring

@[simp] theorem length_bytesOfHalf (v : Half) : (bytesOfHalf v).length = 2 := by
  simp [bytesOfHalf]

@[simp] theorem length_bytesOfWord (v : Word) : (bytesOfWord v).length = 4 := by
  simp [bytesOfWord]

/-- Byte `j` of a 16-bit value, most significant first. -/
theorem getD_bytesOfHalf (v : Half) (j : Nat) (h : j < 2) :
    ((bytesOfHalf v).getD j 0#8).toNat = v.toNat / 256 ^ (2 - 1 - j) % 256 := by
  have : j = 0 ∨ j = 1 := by omega
  rcases this with rfl | rfl <;> simp [bytesOfHalf, Nat.shiftRight_eq_div_pow]

/-- Byte `j` of a 32-bit value, most significant first. -/
theorem getD_bytesOfWord (v : Word) (j : Nat) (h : j < 4) :
    ((bytesOfWord v).getD j 0#8).toNat = v.toNat / 256 ^ (4 - 1 - j) % 256 := by
  have : j = 0 ∨ j = 1 ∨ j = 2 ∨ j = 3 := by omega
  rcases this with rfl | rfl | rfl | rfl <;> simp [bytesOfWord, Nat.shiftRight_eq_div_pow]

/-- A 16-bit field read as a number. -/
theorem toNat_memRead2 (s : State) (o : Nat) :
    (s.memRead2 o).toNat = byteAt s o * 256 + byteAt s (o + 1) :=
  toNat_halfOfBytes _ _

/-- A 32-bit field read as a number. -/
theorem toNat_memRead4 (s : State) (o : Nat) :
    (s.memRead4 o).toNat =
      byteAt s o * 2 ^ 24 + byteAt s (o + 1) * 2 ^ 16 + byteAt s (o + 2) * 2 ^ 8 + byteAt s (o + 3) :=
  toNat_wordOfBytes _ _ _ _

/-- A byte of the run written. -/
theorem byteAt_memWrite_inside (s : State) (o : Nat) {bs : List Byte} {j : Nat} (h : j < bs.length) :
    byteAt (s.memWrite o bs) (o + j) = (bs.getD j 0#8).toNat := by
  simp only [byteAt, memWrite_buf, read_writeBytes]
  rw [if_pos (by omega), Nat.add_sub_cancel_left]

/-- A byte outside the run written. -/
theorem read_memWrite_outside (s : State) {o a : Nat} {bs : List Byte}
    (h : a < o ∨ o + bs.length ≤ a) :
    Memory.read (s.memWrite o bs).buf a = Memory.read s.buf a := by
  simp only [memWrite_buf, read_writeBytes]
  rw [if_neg (by omega)]

/-- A 16-bit field reads as the value written to it. -/
theorem memRead2_memWrite2 (s : State) (o : Nat) (v : Half) : (s.memWrite2 o v).memRead2 o = v := by
  apply BitVec.eq_of_toNat_eq
  have hv := v.isLt
  have h0 := (byteAt_memWrite_inside s o (j := 0) (bs := bytesOfHalf v) (by simp)).trans
    (getD_bytesOfHalf v 0 (by omega))
  have h1 := (byteAt_memWrite_inside s o (j := 1) (bs := bytesOfHalf v) (by simp)).trans
    (getD_bytesOfHalf v 1 (by omega))
  rw [Nat.add_zero] at h0
  rw [State.memWrite2, toNat_memRead2, h0, h1]
  simp
  omega

/-- A 32-bit field reads as the value written to it. -/
theorem memRead4_memWrite4 (s : State) (o : Nat) (v : Word) : (s.memWrite4 o v).memRead4 o = v := by
  apply BitVec.eq_of_toNat_eq
  have hv := v.isLt
  have h0 := (byteAt_memWrite_inside s o (j := 0) (bs := bytesOfWord v) (by simp)).trans
    (getD_bytesOfWord v 0 (by omega))
  have h1 := (byteAt_memWrite_inside s o (j := 1) (bs := bytesOfWord v) (by simp)).trans
    (getD_bytesOfWord v 1 (by omega))
  have h2 := (byteAt_memWrite_inside s o (j := 2) (bs := bytesOfWord v) (by simp)).trans
    (getD_bytesOfWord v 2 (by omega))
  have h3 := (byteAt_memWrite_inside s o (j := 3) (bs := bytesOfWord v) (by simp)).trans
    (getD_bytesOfWord v 3 (by omega))
  rw [Nat.add_zero] at h0
  rw [State.memWrite4, toNat_memRead4, h0, h1, h2, h3]
  simp
  omega

end Sys2Proof.Laws
end

