-- ==== Sys2Proof/Laws/Checksum.lean ====
section
/-! SUPPORT. The arithmetic of the checksum unit (`43_checksum.md`) as arithmetic of numbers: the words of a
sequence of bytes, the ones-complement sum by its residue modulo 65535 and its zero, and what `CK` reads. -/

namespace Sys2Proof.Laws

open Sys2Proof.Machine Sys2Proof.Safety

/-! ### Ones-complement addition -/

/-- The carry is added back in: past 65535 the sum loses 65535. -/
theorem toNat_ocadd16 (a b : Half) :
    (ocadd16 a b).toNat =
      if a.toNat + b.toNat < 65536 then a.toNat + b.toNat else a.toNat + b.toNat - 65535 := by
  have ha := a.isLt
  have hb := b.isLt
  simp only [ocadd16, BitVec.toNat_add, BitVec.extractLsb'_toNat, BitVec.toNat_setWidth,
    Nat.shiftRight_eq_div_pow]
  split <;> omega

/-! ### Residues: what decides a ones-complement sum

A number below 65536 is decided by its residue modulo 65535 and by whether it is zero. -/

/-- `r` is the ones-complement reduction of the plain sum `n` (R124). -/
def Reduces (n r : Nat) : Prop := r ≤ 65535 ∧ r % 65535 = n % 65535 ∧ (r = 0 ↔ n = 0)

theorem reduces_unique {n r q : Nat} (hr : Reduces n r) (hq : Reduces n q) : r = q := by
  unfold Reduces at *
  omega

theorem reduces_foldPasses (fuel : Nat) {n : Nat} (h : n ≤ fuel) : Reduces n (foldPasses fuel n) := by
  induction fuel using Nat.strong_induction_on generalizing n with
  | _ fuel ih =>
    cases fuel with
    | zero =>
      obtain rfl : n = 0 := by omega
      exact ⟨by decide, rfl, by simp [foldPasses]⟩
    | succ fuel =>
      unfold foldPasses
      split
      · have := ih fuel (by omega) (n := n % 0x10000 + n / 0x10000) (by omega)
        unfold Reduces at *
        omega
      · unfold Reduces
        omega

/-- `fold` reduces (R123). -/
theorem reduces_fold (n : Nat) : Reduces n (fold n) := reduces_foldPasses n le_rfl

theorem reduces_ocadd16 {n m : Nat} {a b : Half} (ha : Reduces n a.toNat) (hb : Reduces m b.toNat) :
    Reduces (n + m) (ocadd16 a b).toNat := by
  rw [toNat_ocadd16]
  unfold Reduces at *
  split <;> omega

@[simp] theorem plainSum_nil : plainSum [] = 0 := rfl

@[simp] theorem plainSum_cons (w : Half) (ws : List Half) :
    plainSum (w :: ws) = w.toNat + plainSum ws := by
  simp [plainSum]

@[simp] theorem plainSum_append (ws vs : List Half) :
    plainSum (ws ++ vs) = plainSum ws + plainSum vs := by
  simp [plainSum]

theorem reduces_self (w : Half) : Reduces w.toNat w.toNat := by
  have := w.isLt
  unfold Reduces
  omega

theorem reduces_foldl (ws : List Half) {n : Nat} {r : Half} (h : Reduces n r.toNat) :
    Reduces (n + plainSum ws) (ws.foldl ocadd16 r).toNat := by
  induction ws generalizing n r with
  | nil => simpa using h
  | cons w ws ih =>
    have := ih (reduces_ocadd16 h (reduces_self w))
    simpa [Nat.add_assoc] using this

/-- The ones-complement sum reduces the plain sum (R122, R124). -/
theorem reduces_ocsum (ws : List Half) : Reduces (plainSum ws) (ocsum ws).toNat := by
  have := reduces_foldl ws (n := 0) (r := 0#16) ⟨by decide, rfl, by decide⟩
  simpa [ocsum] using this

/-! ### Words -/

/-- Words formed of two sequences one after the other, the first of even length. -/
theorem words_append (p q : List Byte) (h : p.length % 2 = 0) : words (p ++ q) = words p ++ words q := by
  induction p using words.induct with
  | case1 => simp [words]
  | case2 b => simp at h
  | case3 b0 b1 rest ih =>
    simp only [List.length_cons] at h
    simp [words, ih (by omega)]

/-- The plain sum of the words of a sequence, byte by byte: a byte at an even index is a high byte. -/
theorem plainSum_words (p : List Byte) :
    plainSum (words p) =
      ((List.range p.length).map fun k =>
        (if k % 2 = 0 then 256 else 1) * (p.getD k 0#8).toNat).sum := by
  induction p using words.induct with
  | case1 => simp [words]
  | case2 b => simp [words, toNat_halfOfBytes, List.range_succ, Nat.mul_comm]
  | case3 b0 b1 rest ih =>
    have hpar : ∀ k, (k + 1 + 1) % 2 = k % 2 := fun k => by omega
    simp only [words, plainSum_cons, ih, toNat_halfOfBytes, List.length_cons, List.range_succ_eq_map,
      List.map_cons, List.map_map, List.sum_cons]
    have : ((fun k => (if k % 2 = 0 then 256 else 1) * ((b0 :: b1 :: rest).getD k 0#8).toNat) ∘
        Nat.succ ∘ Nat.succ) = fun k => (if k % 2 = 0 then 256 else 1) * (rest.getD k 0#8).toNat := by
      funext k
      simp [hpar]
    simp [Function.comp_def] at this ⊢
    simp [hpar]
    omega

/-! ### What `CK` reads -/

/-- The words `CK` sums, in the model's own terms (R128). -/
theorem checksumSum_eq (s : State) (a0 a1 : Word) :
    s.checksumSum a0 a1 = ocsum (summedWords s a0 a1) := rfl

/-- The complement as a number. -/
theorem toNat_checksum (s : State) (a0 a1 : Word) :
    (s.checksum a0 a1).toNat = 65535 - (ocsum (summedWords s a0 a1)).toNat := by
  have h : s.checksum a0 a1 = ~~~ (ocsum (summedWords s a0 a1)) := by
    rw [State.checksum, checksumSum_eq, BitVec.xor_comm]
    exact BitVec.xor_allOnes
  rw [h, BitVec.toNat_not]

end Sys2Proof.Laws
end

