-- ==== Sys2Proof/Laws/Decode.lean ====
section
/-! SUPPORT. The fields of a command word and the parts it is made of, the unused bits of a narrow operand,
and what each operand format accepts. -/

namespace Sys2Proof.Laws

/-! ### The command word and its fields -/

theorem fields_of_append (x : BitVec 8) (y z : BitVec 32) :
    (x ++ y ++ z).extractLsb' 64 8 = x ∧ (x ++ y ++ z).extractLsb' 32 32 = y ∧
      (x ++ y ++ z).extractLsb' 0 32 = z := by
  refine ⟨?_, ?_, ?_⟩ <;> ext i hi <;> simp only [BitVec.getElem_extractLsb', BitVec.getLsbD_append]
  · rw [if_neg (by omega), if_neg (by omega), show 64 + i - 32 - 32 = i by omega,
      BitVec.getLsbD_eq_getElem hi]
  · rw [if_neg (by omega), if_pos (by omega), show 32 + i - 32 = i by omega,
      BitVec.getLsbD_eq_getElem hi]
  · rw [if_pos (by omega), Nat.zero_add, BitVec.getLsbD_eq_getElem hi]

theorem append_of_fields (w : BitVec (8 + 32 + 32)) :
    w.extractLsb' 64 8 ++ w.extractLsb' 32 32 ++ w.extractLsb' 0 32 = w := by
  ext i hi
  simp only [BitVec.getElem_append, BitVec.getElem_extractLsb']
  split
  · rw [Nat.zero_add, BitVec.getLsbD_eq_getElem hi]
  · split
    · rw [show 32 + (i - 32) = i by omega, BitVec.getLsbD_eq_getElem hi]
    · rw [show 64 + (i - 32 - 32) = i by omega, BitVec.getLsbD_eq_getElem hi]

variable (op : Byte) (a0 a1 : Word) (data : List Byte)

@[simp] theorem op_commandWord : (Command.mk (commandWord op a0 a1) data).op = op :=
  (fields_of_append op a0 a1).1

@[simp] theorem arg0_commandWord : (Command.mk (commandWord op a0 a1) data).arg0 = a0 :=
  (fields_of_append op a0 a1).2.1

@[simp] theorem arg1_commandWord : (Command.mk (commandWord op a0 a1) data).arg1 = a1 :=
  (fields_of_append op a0 a1).2.2

/-- A command word is made of its fields. -/
theorem commandWord_of_fields (c : Command) : commandWord c.op c.arg0 c.arg1 = c.word :=
  append_of_fields c.word

/-! ### Narrow operands -/

theorem low_of_setWidth {n : Nat} (v : BitVec n) (hn : n ≤ 32) :
    (v.setWidth 32).extractLsb' 0 n = v := by
  ext i hi
  simp [show i < 32 by omega, hi]

theorem high_of_setWidth {n k : Nat} (v : BitVec n) : (v.setWidth 32).extractLsb' n k = 0 := by
  ext i hi
  simp

/-- An operand whose unused bits are zero is its low bits, zero-extended. -/
theorem setWidth_of_low {n k : Nat} (v : BitVec 32) (hk : n + k = 32) (h : v.extractLsb' n k = 0) :
    (v.extractLsb' 0 n).setWidth 32 = v := by
  ext i hi
  by_cases hin : i < n
  · simp [hin, hi]
  · have hz := congrArg (fun x => x.getLsbD (i - n)) h
    simp only [BitVec.getLsbD_extractLsb', show n + (i - n) = i by omega,
      show decide (i - n < k) = true by simp; omega, Bool.true_and,
      BitVec.getLsbD_eq_getElem hi] at hz
    simpa [hin, BitVec.getLsbD_eq_getElem hi] using hz.symm

/-! ### What a format accepts -/

variable {c : Command} {i : Instr}

theorem fixedForm_ok {b : Bool} {j : Instr} :
    fixedForm c b j = .ok i ↔ b = true ∧ c.data = [] ∧ j = i := by
  unfold fixedForm
  by_cases hb : b <;> by_cases hd : c.data = [] <;> simp [hb, hd]

theorem formatN_ok {j : Instr} :
    formatN c j = .ok i ↔ (c.arg0 = 0 ∧ c.arg1 = 0) ∧ c.data = [] ∧ j = i := by
  simp [formatN, fixedForm_ok]

theorem formatW_ok {f : Word → Instr} :
    formatW c f = .ok i ↔ c.arg1 = 0 ∧ c.data = [] ∧ f c.arg0 = i := by
  simp [formatW, fixedForm_ok]

theorem formatH_ok {f : Half → Instr} :
    formatH c f = .ok i ↔ (c.arg0.extractLsb' 16 16 = 0 ∧ c.arg1 = 0) ∧ c.data = [] ∧
      f (c.arg0.extractLsb' 0 16) = i := by
  simp [formatH, fixedForm_ok]

theorem formatQ_ok {f : BitVec 4 → Instr} :
    formatQ c f = .ok i ↔ (c.arg0.extractLsb' 4 28 = 0 ∧ c.arg1 = 0) ∧ c.data = [] ∧
      f (c.arg0.extractLsb' 0 4) = i := by
  simp [formatQ, fixedForm_ok]

theorem formatB_ok {f : Byte → Instr} :
    formatB c f = .ok i ↔ (c.arg0.extractLsb' 8 24 = 0 ∧ c.arg1 = 0) ∧ c.data = [] ∧
      f (c.arg0.extractLsb' 0 8) = i := by
  simp [formatB, fixedForm_ok]

theorem formatA_ok {f : Word → Word → Instr} :
    formatA c f = .ok i ↔ c.data = [] ∧ f c.arg0 c.arg1 = i := by
  simp [formatA, fixedForm_ok]

theorem formatD_ok {f : List Byte → Instr} :
    formatD c f = .ok i ↔ (c.arg0 = 0 ∧ c.arg1 = 0) ∧ f c.data = i := by
  unfold formatD
  split
  · rename_i h
    simp [h]
  · rename_i h
    exact ⟨fun hc => (nomatch hc), fun hc => absurd hc.1 h⟩

/-- A conditional's value is one branch's, under its condition, or the other's. -/
theorem ite_cases {α : Type} {p : Prop} [Decidable p] {a b x : α} (h : (if p then a else b) = x) :
    (p ∧ a = x) ∨ b = x := by
  by_cases hp : p
  · exact .inl ⟨hp, by simpa [hp] using h⟩
  · exact .inr (by simpa [hp] using h)

/-- What the opcode map can have accepted: one opcode of R73, with its format. -/
theorem decodeOp_cases (h : decodeOp c = .ok i) :
    (c.op = 0x01#8 ∧ formatW c .new = .ok i) ∨
    (c.op = 0x02#8 ∧ formatD c .wrap = .ok i) ∨
    (c.op = 0x03#8 ∧ formatN c .discard = .ok i) ∨
    (c.op = 0x04#8 ∧ formatN c .emit = .ok i) ∨
    (c.op = 0x05#8 ∧ formatN c .status = .ok i) ∨
    (c.op = 0x10#8 ∧ formatN c .getSrcPort = .ok i) ∨
    (c.op = 0x11#8 ∧ formatN c .getDstPort = .ok i) ∨
    (c.op = 0x12#8 ∧ formatN c .getSeq = .ok i) ∨
    (c.op = 0x13#8 ∧ formatN c .getAck = .ok i) ∨
    (c.op = 0x14#8 ∧ formatN c .getDataOffset = .ok i) ∨
    (c.op = 0x15#8 ∧ formatN c .getFlag = .ok i) ∨
    (c.op = 0x16#8 ∧ formatN c .getWindow = .ok i) ∨
    (c.op = 0x17#8 ∧ formatN c .getChecksum = .ok i) ∨
    (c.op = 0x20#8 ∧ formatH c .setSrcPort = .ok i) ∨
    (c.op = 0x21#8 ∧ formatH c .setDstPort = .ok i) ∨
    (c.op = 0x22#8 ∧ formatW c .setSeq = .ok i) ∨
    (c.op = 0x23#8 ∧ formatW c .setAck = .ok i) ∨
    (c.op = 0x24#8 ∧ formatQ c .setDataOffset = .ok i) ∨
    (c.op = 0x25#8 ∧ formatB c .setFlag = .ok i) ∨
    (c.op = 0x26#8 ∧ formatH c .setWindow = .ok i) ∨
    (c.op = 0x27#8 ∧ formatH c .setChecksum = .ok i) ∨
    (c.op = 0x28#8 ∧ formatD c .setPayload = .ok i) ∨
    (c.op = 0x30#8 ∧ formatA c .isCorrectChecksum = .ok i) ∨
    (c.op = 0x31#8 ∧ formatA c .csumCompute = .ok i) := by
  unfold decodeOp at h
  refine (ite_cases h).imp_right fun h => ?_
  refine (ite_cases h).imp_right fun h => ?_
  refine (ite_cases h).imp_right fun h => ?_
  refine (ite_cases h).imp_right fun h => ?_
  refine (ite_cases h).imp_right fun h => ?_
  refine (ite_cases h).imp_right fun h => ?_
  refine (ite_cases h).imp_right fun h => ?_
  refine (ite_cases h).imp_right fun h => ?_
  refine (ite_cases h).imp_right fun h => ?_
  refine (ite_cases h).imp_right fun h => ?_
  refine (ite_cases h).imp_right fun h => ?_
  refine (ite_cases h).imp_right fun h => ?_
  refine (ite_cases h).imp_right fun h => ?_
  refine (ite_cases h).imp_right fun h => ?_
  refine (ite_cases h).imp_right fun h => ?_
  refine (ite_cases h).imp_right fun h => ?_
  refine (ite_cases h).imp_right fun h => ?_
  refine (ite_cases h).imp_right fun h => ?_
  refine (ite_cases h).imp_right fun h => ?_
  refine (ite_cases h).imp_right fun h => ?_
  refine (ite_cases h).imp_right fun h => ?_
  refine (ite_cases h).imp_right fun h => ?_
  refine (ite_cases h).imp_right fun h => ?_
  refine (ite_cases h).elim id fun h => nomatch h

/-- The fields an instruction's record has are those of the record it was read from. -/
abbrev FieldsAgree (i : Instr) (c : Command) : Prop :=
  opcodeOf i = c.op ∧ arg0Of i = c.arg0 ∧ arg1Of i = c.arg1 ∧ dataOf i = c.data

/-- What the decoder reads keeps every field of the record. -/
theorem decodeOp_fields (h : decodeOp c = .ok i) : FieldsAgree i c := by
  rcases decodeOp_cases h with
    ⟨ho, h⟩ | ⟨ho, h⟩ | ⟨ho, h⟩ | ⟨ho, h⟩ | ⟨ho, h⟩ | ⟨ho, h⟩ |
    ⟨ho, h⟩ | ⟨ho, h⟩ | ⟨ho, h⟩ | ⟨ho, h⟩ | ⟨ho, h⟩ | ⟨ho, h⟩ |
    ⟨ho, h⟩ | ⟨ho, h⟩ | ⟨ho, h⟩ | ⟨ho, h⟩ | ⟨ho, h⟩ | ⟨ho, h⟩ |
    ⟨ho, h⟩ | ⟨ho, h⟩ | ⟨ho, h⟩ | ⟨ho, h⟩ | ⟨ho, h⟩ | ⟨ho, h⟩
  · obtain ⟨h1, hd, rfl⟩ := formatW_ok.1 h
    exact ⟨ho.symm, rfl, h1.symm, hd.symm⟩
  · obtain ⟨⟨h0, h1⟩, rfl⟩ := formatD_ok.1 h
    exact ⟨ho.symm, h0.symm, h1.symm, rfl⟩
  · obtain ⟨⟨h0, h1⟩, hd, rfl⟩ := formatN_ok.1 h
    exact ⟨ho.symm, h0.symm, h1.symm, hd.symm⟩
  · obtain ⟨⟨h0, h1⟩, hd, rfl⟩ := formatN_ok.1 h
    exact ⟨ho.symm, h0.symm, h1.symm, hd.symm⟩
  · obtain ⟨⟨h0, h1⟩, hd, rfl⟩ := formatN_ok.1 h
    exact ⟨ho.symm, h0.symm, h1.symm, hd.symm⟩
  · obtain ⟨⟨h0, h1⟩, hd, rfl⟩ := formatN_ok.1 h
    exact ⟨ho.symm, h0.symm, h1.symm, hd.symm⟩
  · obtain ⟨⟨h0, h1⟩, hd, rfl⟩ := formatN_ok.1 h
    exact ⟨ho.symm, h0.symm, h1.symm, hd.symm⟩
  · obtain ⟨⟨h0, h1⟩, hd, rfl⟩ := formatN_ok.1 h
    exact ⟨ho.symm, h0.symm, h1.symm, hd.symm⟩
  · obtain ⟨⟨h0, h1⟩, hd, rfl⟩ := formatN_ok.1 h
    exact ⟨ho.symm, h0.symm, h1.symm, hd.symm⟩
  · obtain ⟨⟨h0, h1⟩, hd, rfl⟩ := formatN_ok.1 h
    exact ⟨ho.symm, h0.symm, h1.symm, hd.symm⟩
  · obtain ⟨⟨h0, h1⟩, hd, rfl⟩ := formatN_ok.1 h
    exact ⟨ho.symm, h0.symm, h1.symm, hd.symm⟩
  · obtain ⟨⟨h0, h1⟩, hd, rfl⟩ := formatN_ok.1 h
    exact ⟨ho.symm, h0.symm, h1.symm, hd.symm⟩
  · obtain ⟨⟨h0, h1⟩, hd, rfl⟩ := formatN_ok.1 h
    exact ⟨ho.symm, h0.symm, h1.symm, hd.symm⟩
  · obtain ⟨⟨h0, h1⟩, hd, rfl⟩ := formatH_ok.1 h
    exact ⟨ho.symm, setWidth_of_low _ rfl h0, h1.symm, hd.symm⟩
  · obtain ⟨⟨h0, h1⟩, hd, rfl⟩ := formatH_ok.1 h
    exact ⟨ho.symm, setWidth_of_low _ rfl h0, h1.symm, hd.symm⟩
  · obtain ⟨h1, hd, rfl⟩ := formatW_ok.1 h
    exact ⟨ho.symm, rfl, h1.symm, hd.symm⟩
  · obtain ⟨h1, hd, rfl⟩ := formatW_ok.1 h
    exact ⟨ho.symm, rfl, h1.symm, hd.symm⟩
  · obtain ⟨⟨h0, h1⟩, hd, rfl⟩ := formatQ_ok.1 h
    exact ⟨ho.symm, setWidth_of_low _ rfl h0, h1.symm, hd.symm⟩
  · obtain ⟨⟨h0, h1⟩, hd, rfl⟩ := formatB_ok.1 h
    exact ⟨ho.symm, setWidth_of_low _ rfl h0, h1.symm, hd.symm⟩
  · obtain ⟨⟨h0, h1⟩, hd, rfl⟩ := formatH_ok.1 h
    exact ⟨ho.symm, setWidth_of_low _ rfl h0, h1.symm, hd.symm⟩
  · obtain ⟨⟨h0, h1⟩, hd, rfl⟩ := formatH_ok.1 h
    exact ⟨ho.symm, setWidth_of_low _ rfl h0, h1.symm, hd.symm⟩
  · obtain ⟨⟨h0, h1⟩, rfl⟩ := formatD_ok.1 h
    exact ⟨ho.symm, h0.symm, h1.symm, rfl⟩
  · obtain ⟨hd, rfl⟩ := formatA_ok.1 h
    exact ⟨ho.symm, rfl, rfl, hd.symm⟩
  · obtain ⟨hd, rfl⟩ := formatA_ok.1 h
    exact ⟨ho.symm, rfl, rfl, hd.symm⟩

/-- An instruction is well-formed exactly when its `DATA` is one a record can carry. -/
theorem wellFormed_iff (i : Instr) : WellFormed i = true ↔ DataFits (dataOf i) := by
  cases i <;> simp [WellFormed, dataOf]

/-- A record that decodes is a command record (R66). -/
theorem decode_ok : decode c = .ok i ↔ DataFits c.data ∧ decodeOp c = .ok i := by
  unfold decode
  split <;> simp [*]

end Sys2Proof.Laws
end

