-- ==== Sys2Proof/Laws/PerInstr.lean ====
section
/-! SUPPORT. Lemmas made per instruction. Family `Encoding`: an instruction a command record can carry is
what its record decodes to. -/

namespace Sys2Proof.Laws.Encoding

/-- The statement of the family, about the instruction as syntax. -/
def Statement (i : Instr) : Prop := WellFormed i = true → decode (encode i) = .ok i

/-- What the formats need of an encoded instruction: its fields are the ones the encoder put there. -/
theorem of_decodeOp {i : Instr} (hd : decodeOp (encode i) = .ok i) : Statement i :=
  fun hw => decode_ok.2 ⟨(wellFormed_iff i).1 hw, hd⟩

theorem new (n : Word) : Statement (.new n) :=
  of_decodeOp (by simp [decodeOp, encode, opcodeOf, arg0Of, arg1Of, dataOf, formatW_ok])

theorem wrap (data : List Byte) : Statement (.wrap data) :=
  of_decodeOp (by simp [decodeOp, encode, opcodeOf, arg0Of, arg1Of, dataOf, formatD_ok])

theorem discard : Statement .discard := of_decodeOp (by decide)

theorem emit : Statement .emit := of_decodeOp (by decide)

theorem status : Statement .status := of_decodeOp (by decide)

theorem getSrcPort : Statement .getSrcPort := of_decodeOp (by decide)

theorem getDstPort : Statement .getDstPort := of_decodeOp (by decide)

theorem getSeq : Statement .getSeq := of_decodeOp (by decide)

theorem getAck : Statement .getAck := of_decodeOp (by decide)

theorem getDataOffset : Statement .getDataOffset := of_decodeOp (by decide)

theorem getFlag : Statement .getFlag := of_decodeOp (by decide)

theorem getWindow : Statement .getWindow := of_decodeOp (by decide)

theorem getChecksum : Statement .getChecksum := of_decodeOp (by decide)

theorem setSrcPort (v : Half) : Statement (.setSrcPort v) :=
  of_decodeOp (by
    simp [decodeOp, encode, opcodeOf, arg0Of, arg1Of, dataOf, formatH_ok, low_of_setWidth,
      high_of_setWidth])

theorem setDstPort (v : Half) : Statement (.setDstPort v) :=
  of_decodeOp (by
    simp [decodeOp, encode, opcodeOf, arg0Of, arg1Of, dataOf, formatH_ok, low_of_setWidth,
      high_of_setWidth])

theorem setSeq (v : Word) : Statement (.setSeq v) :=
  of_decodeOp (by simp [decodeOp, encode, opcodeOf, arg0Of, arg1Of, dataOf, formatW_ok])

theorem setAck (v : Word) : Statement (.setAck v) :=
  of_decodeOp (by simp [decodeOp, encode, opcodeOf, arg0Of, arg1Of, dataOf, formatW_ok])

theorem setDataOffset (v : BitVec 4) : Statement (.setDataOffset v) :=
  of_decodeOp (by
    simp [decodeOp, encode, opcodeOf, arg0Of, arg1Of, dataOf, formatQ_ok, low_of_setWidth,
      high_of_setWidth])

theorem setFlag (v : Byte) : Statement (.setFlag v) :=
  of_decodeOp (by
    simp [decodeOp, encode, opcodeOf, arg0Of, arg1Of, dataOf, formatB_ok, low_of_setWidth,
      high_of_setWidth])

theorem setWindow (v : Half) : Statement (.setWindow v) :=
  of_decodeOp (by
    simp [decodeOp, encode, opcodeOf, arg0Of, arg1Of, dataOf, formatH_ok, low_of_setWidth,
      high_of_setWidth])

theorem setChecksum (v : Half) : Statement (.setChecksum v) :=
  of_decodeOp (by
    simp [decodeOp, encode, opcodeOf, arg0Of, arg1Of, dataOf, formatH_ok, low_of_setWidth,
      high_of_setWidth])

theorem setPayload (data : List Byte) : Statement (.setPayload data) :=
  of_decodeOp (by simp [decodeOp, encode, opcodeOf, arg0Of, arg1Of, dataOf, formatD_ok])

theorem isCorrectChecksum (a0 a1 : Word) : Statement (.isCorrectChecksum a0 a1) :=
  of_decodeOp (by simp [decodeOp, encode, opcodeOf, arg0Of, arg1Of, dataOf, formatA_ok])

theorem csumCompute (a0 a1 : Word) : Statement (.csumCompute a0 a1) :=
  of_decodeOp (by simp [decodeOp, encode, opcodeOf, arg0Of, arg1Of, dataOf, formatA_ok])

end Sys2Proof.Laws.Encoding

namespace Sys2Proof.Laws

/-- An instruction that meets the family's statement is what its own opcode and operands carry. -/
theorem carries_of_encoding (i : Instr) (h : Encoding.Statement i) (hw : WellFormed i = true) :
    Safety.Carries (opcodeOf i) (arg0Of i) (arg1Of i) (dataOf i) i := h hw

end Sys2Proof.Laws
end

