-- ==== Sys2Proof/Tests/Slice0.lean ====
section
/-! SUPPORT. The model's own tests. The expected results are the spec's: the command words of R67 and R73,
the vectors of `95_test_vectors.md` (named by their id), the examples of the rules. -/

namespace Sys2Proof.Tests

open Sys2Proof.Machine Sys2Proof.Safety

/-! ### Helpers -/

/-- A state that holds `data` as its segment (as WRAP leaves it), with nothing pending. -/
def holding (data : List Byte) : State :=
  State.reset.holdSegment (BitVec.ofNat 16 (data.length - 20)) (Memory.writeBytes [] 0 data)

/-- The start state of V-GET-1 to V-GET-8. -/
def received : State :=
  holding [0x30, 0x39, 0x00, 0x50, 0x00, 0x00, 0x03, 0xE8, 0x12, 0x34, 0x56, 0x78,
    0x5F, 0x02, 0xFF, 0xFF, 0xF6, 0x13, 0xAB, 0xCD, 0x01, 0x02, 0x03, 0x04]

/-- The source's example segment (S5) with its checksum field holding `c`: V-CK-1 for zero. -/
def exampleSegment (c : Half) : State :=
  holding ([0x30, 0x39, 0x00, 0x50, 0x00, 0x00, 0x03, 0xE8, 0x00, 0x00, 0x00, 0x00,
    0x50, 0x02, 0xFF, 0xFF] ++ bytesOfHalf c ++ [0x00, 0x00, 0x01, 0x02, 0x03, 0x04])

/-- The state after `NEW n` from reset. -/
def fresh (n : Half) : State := State.reset.holdSegment n Memory.zeroed

/-- The state of a reset block with the parameter `PAYLOAD_MAX = 100`. -/
def small : State := { State.reset with cfg := { payloadMax := 100 } }

/-- One step on one pending command. -/
def run (s : State) (w : CmdWord) (data : List Byte) : Host.Outcome State Fault Refusal :=
  step { s with cmdPort := [.command { word := w, data := data }] }

/-- The state an outcome holds. -/
def after (o : Host.Outcome State Fault Refusal) : Option State :=
  match o with
  | .next t => some t
  | .fault _ => none
  | .refused _ => none

/-- The responses an outcome holds. -/
def responses (o : Host.Outcome State Fault Refusal) : List Response :=
  match o with
  | .next t => t.rspPort
  | .fault _ => []
  | .refused _ => []

/-- The bytes `BUF[o..o+n]` an outcome holds. -/
def bytes (o : Host.Outcome State Fault Refusal) (a n : Nat) : List Byte :=
  match o with
  | .next t => Memory.readBytes t.buf a n
  | .fault _ => []
  | .refused _ => []

/-- `(VALID, PLEN)` of an outcome. -/
def status (o : Host.Outcome State Fault Refusal) : Option (Bool × Half) :=
  match o with
  | .next t => some (t.valid, t.plen)
  | .fault _ => none
  | .refused _ => none

/-! ### WellFormed: the one check, and an ill-formed term for each operation it applies to (R66) -/

/-- One byte more than a record can carry. -/
def oversized : List Byte := List.replicate 65536 0#8

/-- As many bytes as a record can carry. -/
def longest : List Byte := List.replicate 65535 0#8

theorem length_oversized : oversized.length = 65536 := List.length_replicate

theorem length_longest : longest.length = 65535 := List.length_replicate

theorem test_wellFormed_wrap_too_long : WellFormed (.wrap oversized) = false := by
  simp [WellFormed, length_oversized]

theorem test_wellFormed_setPayload_too_long : WellFormed (.setPayload oversized) = false := by
  simp [WellFormed, length_oversized]

theorem test_wellFormed_wrap_longest : WellFormed (.wrap longest) = true := by
  simp [WellFormed, length_longest]

/-! ### Decode: a word written out from R67, R70 and R73 for every constructor -/

theorem test_decode_new : decode ⟨0x010000000400000000, []⟩ = .ok (.new 4) := by decide
theorem test_decode_wrap : decode ⟨0x020000000000000000, [1, 2]⟩ = .ok (.wrap [1, 2]) := by decide
theorem test_decode_discard : decode ⟨0x030000000000000000, []⟩ = .ok .discard := by decide
theorem test_decode_emit : decode ⟨0x040000000000000000, []⟩ = .ok .emit := by decide
theorem test_decode_status : decode ⟨0x050000000000000000, []⟩ = .ok .status := by decide
theorem test_decode_getSrcPort : decode ⟨0x100000000000000000, []⟩ = .ok .getSrcPort := by decide
theorem test_decode_getDstPort : decode ⟨0x110000000000000000, []⟩ = .ok .getDstPort := by decide
theorem test_decode_getSeq : decode ⟨0x120000000000000000, []⟩ = .ok .getSeq := by decide
theorem test_decode_getAck : decode ⟨0x130000000000000000, []⟩ = .ok .getAck := by decide
theorem test_decode_getDataOffset : decode ⟨0x140000000000000000, []⟩ = .ok .getDataOffset := by decide
theorem test_decode_getFlag : decode ⟨0x150000000000000000, []⟩ = .ok .getFlag := by decide
theorem test_decode_getWindow : decode ⟨0x160000000000000000, []⟩ = .ok .getWindow := by decide
theorem test_decode_getChecksum : decode ⟨0x170000000000000000, []⟩ = .ok .getChecksum := by decide
theorem test_decode_setSrcPort : decode ⟨0x200000303900000000, []⟩ = .ok (.setSrcPort 12345) := by decide
theorem test_decode_setDstPort : decode ⟨0x210000005000000000, []⟩ = .ok (.setDstPort 80) := by decide
theorem test_decode_setSeq : decode ⟨0x22DEADBEEF00000000, []⟩ = .ok (.setSeq 0xDEADBEEF) := by decide
theorem test_decode_setAck : decode ⟨0x231234567800000000, []⟩ = .ok (.setAck 0x12345678) := by decide
theorem test_decode_setDataOffset : decode ⟨0x240000000A00000000, []⟩ = .ok (.setDataOffset 10) := by decide
theorem test_decode_setFlag : decode ⟨0x25000000FF00000000, []⟩ = .ok (.setFlag 0xFF) := by decide
theorem test_decode_setWindow : decode ⟨0x260000010000000000, []⟩ = .ok (.setWindow 0x0100) := by decide
theorem test_decode_setChecksum : decode ⟨0x270000F61300000000, []⟩ = .ok (.setChecksum 0xF613) := by decide
theorem test_decode_setPayload : decode ⟨0x280000000000000000, [1, 2, 3, 4]⟩ = .ok (.setPayload [1, 2, 3, 4]) := by
  decide
theorem test_decode_isCorrectChecksum :
    decode ⟨0x30C0A80001C0A80002, []⟩ = .ok (.isCorrectChecksum 0xC0A80001 0xC0A80002) := by decide
theorem test_decode_csumCompute :
    decode ⟨0x310A0000010A000002, []⟩ = .ok (.csumCompute 0x0A000001 0x0A000002) := by decide

/-! ### Decode: rejected by name (V-CON-19 to V-CON-22, V-SET-9d, V-SET-15, V-GET-11, V-CK-16) -/

theorem test_decode_opcode_00 : decode ⟨0x000000000000000000, []⟩ = .error .unassignedOpcode := by decide
theorem test_decode_opcode_29 : decode ⟨0x290000000000000000, []⟩ = .error .unassignedOpcode := by decide
theorem test_decode_new_with_arg1 :
    decode ⟨0x010000000400000001, []⟩ = .error .unusedOperandBits := by decide
theorem test_decode_status_with_data :
    decode ⟨0x050000000000000000, [0]⟩ = .error .unexpectedData := by decide
theorem test_decode_setDataOffset_16 :
    decode ⟨0x240000001000000000, []⟩ = .error .unusedOperandBits := by decide
theorem test_decode_setSrcPort_wide :
    decode ⟨0x200001000000000000, []⟩ = .error .unusedOperandBits := by decide
theorem test_decode_setFlag_wide :
    decode ⟨0x250000010000000000, []⟩ = .error .unusedOperandBits := by decide
theorem test_decode_isCorrectChecksum_with_data :
    decode ⟨0x300000000000000000, [0]⟩ = .error .unexpectedData := by decide
theorem test_decode_oversized :
    decode ⟨0x020000000000000000, oversized⟩ = .error .oversizedData := by
  simp [decode, length_oversized]

theorem test_decodeTableWord : decodeTableWord 72 0x240000000F00000000 = some (.setDataOffset 15) := by
  decide
theorem test_decodeTableWord_too_wide : decodeTableWord 72 (2 ^ 72 + 0x040000000000000000) = none := by
  decide
theorem test_withFetchWord_new :
    step (State.reset.withFetchWord 72 0x010000000400000000) = exec (.new 4) State.reset := by rfl

/-! ### Construction (V-CON) -/

theorem test_new_4 : status (run State.reset 0x010000000400000000 []) = some (true, 4) := by decide
theorem test_new_over_capacity :
    responses (run State.reset 0x010000FFEC00000000 []) = [errResponse 5] := by decide
theorem test_new_over_small_capacity :
    after (run small 0x010000006500000000 []) = some (small.respond (errResponse 5)) := by decide
theorem test_wrap_19_bytes :
    after (run State.reset 0x020000000000000000 (List.replicate 19 0)) =
      some (State.reset.respond (errResponse 1)) := by decide
theorem test_wrap_20_bytes :
    bytes (run (fresh 4) 0x020000000000000000 (List.replicate 20 0xAA)) 0 20 =
      List.replicate 20 0xAA := by decide
theorem test_discard : status (run (fresh 4) 0x030000000000000000 []) = some (false, 0) := by decide
theorem test_discard_empty : responses (run State.reset 0x030000000000000000 []) = [okResponse 0 []] := by
  decide
theorem test_emit :
    responses (run (holding (List.replicate 20 0xAA)) 0x040000000000000000 []) =
      [okResponse 0 (List.replicate 20 0xAA)] := by decide
theorem test_emit_no_segment :
    responses (run State.reset 0x040000000000000000 []) = [errResponse 3] := by decide
theorem test_status : responses (run (fresh 4) 0x050000000000000000 []) = [okResponse 0x00010004 []] := by
  decide
theorem test_status_reset : responses (run State.reset 0x050000000000000000 []) = [okResponse 0 []] := by
  decide

/-! ### Accessors (V-GET) -/

theorem test_getSrcPort :
    responses (run received 0x100000000000000000 []) = [okResponse 0x3039 []] := by decide
theorem test_getDstPort :
    responses (run received 0x110000000000000000 []) = [okResponse 0x50 []] := by decide
theorem test_getSeq : responses (run received 0x120000000000000000 []) = [okResponse 0x3E8 []] := by decide
theorem test_getSeq_no_segment :
    responses (run State.reset 0x120000000000000000 []) = [errResponse 3] := by decide
theorem test_getAck :
    responses (run received 0x130000000000000000 []) = [okResponse 0x12345678 []] := by decide
theorem test_getDataOffset :
    responses (run received 0x140000000000000000 []) = [okResponse 5 []] := by decide
theorem test_getFlag : responses (run received 0x150000000000000000 []) = [okResponse 2 []] := by decide
theorem test_getWindow :
    responses (run received 0x160000000000000000 []) = [okResponse 0xFFFF []] := by decide
theorem test_getChecksum :
    responses (run received 0x170000000000000000 []) = [okResponse 0xF613 []] := by decide

/-! ### Mutators (V-SET) -/

theorem test_setSrcPort :
    bytes (run (fresh 4) 0x200000303900000000 []) 0 3 = [0x30, 0x39, 0x00] := by decide
theorem test_setDstPort :
    bytes (run (fresh 4) 0x210000005000000000 []) 1 4 = [0x00, 0x00, 0x50, 0x00] := by decide
theorem test_setSeq :
    bytes (run (fresh 4) 0x22DEADBEEF00000000 []) 4 4 = [0xDE, 0xAD, 0xBE, 0xEF] := by decide
theorem test_setAck :
    bytes (run (fresh 4) 0x230000000100000000 []) 8 4 = [0x00, 0x00, 0x00, 0x01] := by decide
/-- V-SET-9c: the OR keeps the reserved nibble. -/
theorem test_setDataOffset_accumulates :
    bytes (run received 0x240000000800000000 []) 12 2 = [0xDF, 0x02] := by decide
theorem test_setDataOffset_wide :
    after (run received 0x240000001000000000 []) = some (received.respond (errResponse 4)) := by decide
/-- V-SET-7: replace, not OR. -/
theorem test_setFlag_replaces :
    bytes (run received 0x250000001000000000 []) 12 3 = [0x5F, 0x10, 0xFF] := by decide
theorem test_setFlag_no_segment :
    responses (run State.reset 0x250000000200000000 []) = [errResponse 3] := by decide
theorem test_setWindow :
    bytes (run received 0x260000010000000000 []) 13 4 = [0x02, 0x01, 0x00, 0xF6] := by decide
theorem test_setChecksum :
    bytes (run (fresh 4) 0x270000F61300000000 []) 16 2 = [0xF6, 0x13] := by decide
theorem test_setPayload :
    bytes (run (fresh 4) 0x280000000000000000 [1, 2, 3, 4]) 19 5 = [0, 1, 2, 3, 4] := by decide
theorem test_setPayload_short :
    after (run (fresh 4) 0x280000000000000000 [1, 2, 3]) = some ((fresh 4).respond (errResponse 2)) := by
  decide

/-! ### The checksum unit (V-AR, V-CK) -/

theorem test_ocadd16_carry : ocadd16 0xC0A8 0xC0A8 = 0x8151 := by decide
theorem test_ocadd16_all_ones : ocadd16 0xFFFF 0xFFFF = 0xFFFF := by decide
theorem test_fold : fold 0x309E9 = 0x09EC := by decide
theorem test_words_odd : words [0x01, 0x02, 0x03] = [0x0102, 0x0300] := by decide
theorem test_ocsum_multiple_of_65535 : ocsum [0x0001, 0xFFFE] = 0xFFFF := by decide

/-- V-CK-1. -/
theorem test_csumCompute :
    responses (run (exampleSegment 0) 0x31C0A80001C0A80002 []) = [okResponse 0xF613 []] := by decide +kernel
/-- V-CK-15. -/
theorem test_csumCompute_stale :
    responses (run (exampleSegment 0xF613) 0x31C0A80001C0A80002 []) = [errResponse 6] := by decide
/-- V-CK-6: an odd length. -/
theorem test_checksum_odd_length :
    responses (run (holding (List.replicate 20 0 ++ [0xAB])) 0x310A0000010A000002 []) =
      [okResponse 0x40E1 []] := by decide
/-- P1 step 13. -/
theorem test_isCorrectChecksum :
    responses (run (exampleSegment 0xF613) 0x30C0A80001C0A80002 []) = [okResponse 1 []] := by decide +kernel
/-- V-CK-9: a sum-to-`0xFFFF` verifier would accept this. -/
theorem test_isCorrectChecksum_all_ones :
    responses (run (holding (List.replicate 16 0 ++ [0xFF, 0xFF, 0, 0])) 0x30FFE5000000000000 []) =
      [okResponse 0 []] := by decide

/-! ### The step -/

theorem test_illegal_opcode :
    after (run received 0x180000000000000000 []) = some (received.respond (errResponse 4)) := by decide
theorem test_idle : after (step received) = some received := by decide
theorem test_reset_input :
    after (step { received with cmdPort := [.resetDuring ⟨0x040000000000000000, []⟩] }) =
      some State.reset := by
  decide

end Sys2Proof.Tests
end

