-- ==== Sys2Proof/Tests/Witnesses.lean ====
section
/-! SUPPORT. For every statement with hypotheses, a concrete state and operands that meet them together, at a
boundary value of each clause. -/

namespace Sys2Proof.Tests

open Sys2Proof.Machine Sys2Proof.Safety Sys2Proof.Laws

/-- A state with one pending command and one pending after it. -/
def pending (s : State) (c : Command) : State :=
  { s with cmdPort := [.command c, .command ⟨0x050000000000000000, []⟩] }

/-- The source's example, sealed (P1 step 13), validates. -/
theorem example_validates : Validates (exampleSegment 0xF613) 0xC0A80001 0xC0A80002 := by
  have h : (exampleSegment 0xF613).checksum 0xC0A80001 0xC0A80002 =
    (exampleSegment 0xF613).memRead2 16 := by decide +kernel
  have hv : (exampleSegment 0xF613).valid = true := by decide
  simp only [Validates, exec, execIsCorrectChecksum]
  rw [withSegment_valid hv, h, returnOk_eq, next_respond_inj]
  simp [boolRes]

/-! ### Encoding -/

theorem witness_DecodeOfEncodeIsTheInstruction :
    WellFormed (.setPayload [1, 2]) = true ∧ WellFormed (.wrap longest) = true :=
  ⟨by decide, test_wellFormed_wrap_longest⟩

theorem witness_EncodeOfDecodeIsTheCommand :
    decode ⟨0x240000000F00000000, []⟩ = .ok (.setDataOffset 15) := by decide

theorem witness_DecoderAgreesWithTheOpcodeTable :
    ∃ row ∈ opcodeTable, row.mnemonic = "SET_FLAG" ∧ row.accepts 0x25000000FF00000000 ∧
      ¬ row.accepts 0x250000010000000000 ∧ DataFits [] := by decide

theorem witness_OpcodeMapAndOperandFormats :
    DataFits longest ∧ ((0x17#8, .getChecksum) : Byte × Instr) ∈
      ([(0x03, .discard), (0x17, .getChecksum)] : List (Byte × Instr)) :=
  ⟨by simp [length_longest], by decide⟩

theorem witness_OpcodeTableRowsAreDisjoint :
    ∃ row ∈ opcodeTable, row.accepts 0x31FFFFFFFFFFFFFFFF := by decide

theorem witness_IllFormedCommandRaisesIllegalCommand :
    ¬ CommandOk ⟨0x240000001000000000, []⟩ ∧ ¬ CommandOk ⟨0x040000000000000000, [0]⟩ ∧
      CommandOk ⟨0x240000000F00000000, []⟩ ∧ CommandOk ⟨0x280000000000000000, [0]⟩ := by
  unfold CommandOk
  decide

theorem witness_UnassignedOpcodeRaisesIllegalCommand :
    (∀ op ∈ [0x00, 0x06, 0x0F, 0x18, 0x1F, 0x29, 0x2F, 0x32, 0xFF], Unassigned op) ∧
      (∀ op ∈ [0x01, 0x05, 0x10, 0x17, 0x20, 0x28, 0x30, 0x31], ¬ Unassigned op) ∧
      Unassigned (Command.mk 0x32FFFFFFFFFFFFFFFF [7]).op.toNat := by decide

/-! ### The step -/

theorem witness_StepRunsTheDecodedCommand :
    ∃ rest, (pending received ⟨0x120000000000000000, []⟩).cmdPort =
        .command ⟨0x120000000000000000, []⟩ :: rest ∧
      decode ⟨0x120000000000000000, []⟩ = .ok .getSeq ∧ DataFits [] :=
  ⟨_, rfl, by decide, by decide⟩

theorem witness_EveryCommandIsAnsweredByExactlyOneResponse :
    ∃ rest, (pending State.reset ⟨0x020000000000000000, longest⟩).cmdPort =
        .command ⟨0x020000000000000000, longest⟩ :: rest ∧ DataFits longest :=
  ⟨_, rfl, by simp [length_longest]⟩

theorem witness_EveryPendingCommandIsAnsweredInOrder :
    (pending received ⟨0x000000000000000000, []⟩).cmdPort =
        [⟨0x000000000000000000, []⟩, ⟨0x050000000000000000, []⟩].map PortEvent.command ∧
      ∀ c ∈ [Command.mk 0x000000000000000000 [], Command.mk 0x050000000000000000 []],
        DataFits c.data := by decide

theorem witness_OnlyAnOversizedRecordStopsTheModel :
    ∃ rest, (pending received ⟨0x020000000000000000, oversized⟩).cmdPort =
        .command ⟨0x020000000000000000, oversized⟩ :: rest ∧ ¬ DataFits oversized :=
  ⟨_, rfl, by simp [length_oversized]⟩

theorem witness_ResetAbandonsTheCommand :
    ∃ e rest, ({ received with cmdPort := [.resetDuring ⟨0x040000000000000000, []⟩, .reset] } :
        State).cmdPort = e :: rest ∧ (e = .reset ∨ ∃ c, e = .resetDuring c) :=
  ⟨_, _, rfl, .inr ⟨_, rfl⟩⟩

theorem witness_IdleAndMostOperationsKeepTheSegment :
    received.cmdPort = [] ∧ changesSegment (.setFlag 2) = false ∧
      ∃ t, exec (.setFlag 2) received = .next t :=
  ⟨rfl, rfl, _, rfl⟩

/-- A state that is not the reset state and meets the invariant: a held segment with bytes in it. -/
theorem received_satisfies_the_invariant : Inv received where
  memory := by decide
  capacity := by decide
  empty := by decide
  inside := by decide
  responses := fun _ hr => nomatch hr

theorem witness_EveryStepKeepsTheInvariant :
    Inv (pending received ⟨0x250000001000000000, []⟩) ∧
      ∃ t, step (pending received ⟨0x250000001000000000, []⟩) = .next t :=
  ⟨⟨received_satisfies_the_invariant.memory, received_satisfies_the_invariant.capacity,
    received_satisfies_the_invariant.empty, received_satisfies_the_invariant.inside,
    received_satisfies_the_invariant.responses⟩, _, rfl⟩

/-! ### Construction -/

theorem witness_NewCreatesAZeroFilledSegment :
    small.cfg.payloadMax.val < (101 : Word).toNat ∧ (100 : Word).toNat ≤ small.cfg.payloadMax.val ∧
      (65515 : Word).toNat ≤ received.cfg.payloadMax.val ∧ (0 : Word).toNat ≤ small.cfg.payloadMax.val := by
  decide

theorem witness_WrapTakesTheBytesAndChecksOnlyTheLength :
    (List.replicate 19 (0 : Byte)).length < 20 ∧ 20 ≤ (List.replicate 20 (0 : Byte)).length ∧
      (List.replicate 120 (0 : Byte)).length ≤ 20 + small.cfg.payloadMax.val ∧
      20 + small.cfg.payloadMax.val < (List.replicate 121 (0 : Byte)).length := by
  simp [small]

theorem witness_DiscardReleasesTheSegment :
    needsSegment .getFlag = true ∧ State.reset.valid = false ∧ State.reset.plen = 0#16 := by decide

theorem witness_EmitReadsTheWholeBuffer : received.valid = true ∧ State.reset.valid = false := by decide

theorem witness_EmitReadsTheWholeBuffer_after_construction :
    20 ≤ (List.replicate 21 (0xAA : Byte)).length ∧
      (List.replicate 21 (0xAA : Byte)).length ≤ 20 + received.cfg.payloadMax.val ∧
      (65515 : Word).toNat ≤ received.cfg.payloadMax.val := by
  decide

theorem witness_StatusReportsValidAndPlen : Inv State.reset ∧ State.reset.valid = false :=
  ⟨⟨by decide, by decide, by decide, by decide, fun _ hr => nomatch hr⟩, rfl⟩

theorem witness_NewAndWrapForgetTheOldSegment :
    received.cfg = State.reset.cfg ∧ received.cmdPort = State.reset.cmdPort ∧
      received.rspPort = State.reset.rspPort ∧ received.buf ≠ State.reset.buf ∧
      (3 : Word).toNat ≤ received.cfg.payloadMax.val ∧
      20 ≤ (List.replicate 20 (1 : Byte)).length := by decide

/-! ### Accessors and mutators -/

/-- For the statements about the getters, about the setters, and about SET_DATA_OFFSET: both clauses. -/
theorem witness_getters_and_setters : (fresh 0).valid = true ∧ State.reset.valid = false := by decide

theorem witness_GettersAreSlicesOfTheHeader :
    received.valid = true ∧ ∀ k, k < 20 →
      (0x30390050000003E8123456785F02FFFFF613ABCD : BitVec 160).extractLsb' (152 - 8 * k) 8 =
        Memory.read received.buf k := by decide

theorem witness_ReadersHaveNoSideEffect :
    isReader .emit = true ∧ isReader .status = true ∧ isReader (.csumCompute 0 1) = true := by decide

theorem witness_SetDataOffsetAccumulates :
    changesSegment (.setDataOffset 0) = false ∧ ∃ t, exec (.setDataOffset 0) received = .next t :=
  ⟨rfl, _, rfl⟩

theorem witness_UrgentAndReservedAreWrittenOnlyByConstruction :
    changesSegment (.setPayload [9, 9, 9, 9]) = false ∧ byteAt received 18 = 0xAB ∧
      byteAt received 12 % 16 = 15 ∧ ∃ t, exec (.setPayload [9, 9, 9, 9]) received = .next t :=
  ⟨rfl, by decide, by decide, _, rfl⟩

theorem witness_SetPayloadCopiesExactlyPlenBytes :
    State.reset.valid = false ∧ (fresh 4).valid = true ∧
      [1, 2, 3].length ≠ (fresh 4).plen.toNat ∧ [1, 2, 3, 4, 5].length ≠ (fresh 4).plen.toNat ∧
      [1, 2, 3, 4].length = (fresh 4).plen.toNat ∧ [].length (α := Byte) = (fresh 0).plen.toNat := by
  decide

theorem witness_SettersLeaveEveryOtherFieldAlone :
    isSetter (.setSeq 0xFFFFFFFF) = true ∧ (∃ t, exec (.setSeq 0xFFFFFFFF) received = .next t) ∧
      .getAck ∈ getters ∧ getterOf (.setSeq 0xFFFFFFFF) ≠ some .getAck :=
  ⟨rfl, ⟨_, rfl⟩, by decide, by decide⟩

theorem witness_SettersAreIdempotent :
    isSetter (.setDataOffset 8) = true ∧ ∃ t, exec (.setDataOffset 8) received = .next t :=
  ⟨rfl, _, rfl⟩

/-! ### Errors -/

theorem witness_NoSegmentIsRaisedExactlyWithoutASegment :
    needsSegment .emit = true ∧ State.reset.valid = false ∧
      ∃ t r, exec .emit State.reset = .next t ∧ t.rspPort = State.reset.rspPort ++ [r] ∧ r.err = 3#4 :=
  ⟨rfl, rfl, _, _, rfl, rfl, rfl⟩

theorem witness_AnErrorChangesNoState :
    ∃ t r, step (pending (fresh 4) ⟨0x280000000000000000, [1]⟩) = .next t ∧
      t.rspPort = (pending (fresh 4) ⟨0x280000000000000000, [1]⟩).rspPort ++ [r] ∧ r.err ≠ 0#4 :=
  ⟨_, errResponse 2#4, rfl, rfl, by decide⟩

/-- Two checks fail together and the first decides: V-SET-17, and a set unused bit with no segment held. -/
theorem witness_ChecksAreMadeInTheFixedOrder :
    (decode ⟨0x280000000000000000, [1]⟩ = .ok (.setPayload [1]) ∧ State.reset.valid = false ∧
      ownCheck (.setPayload [1]) State.reset = 2#4) ∧
    ¬ CommandOk ⟨0x280000000100000000, [1]⟩ := by
  unfold CommandOk
  decide

/-- For `EachOperationRaisesOnlyItsErrors`, `ResponsesHaveTheShapeOfTheRecord` and
`NoHiddenStateInfluencesAnOperation`, which share their hypotheses. -/
theorem witness_outcomes_of_operations :
    ∃ t r, exec (.setPayload [1]) (fresh 4) = .next t ∧ t.rspPort = (fresh 4).rspPort ++ [r] ∧
      r.err = 2#4 :=
  ⟨_, errResponse 2#4, rfl, rfl, rfl⟩

theorem witness_BufIsUnobservableWithoutASegment :
    SameToHost { pending State.reset ⟨0x010000000300000000, []⟩ with buf := [(3, 0x55#8)] }
        (pending State.reset ⟨0x010000000300000000, []⟩) ∧
      ∃ t, step { pending State.reset ⟨0x010000000300000000, []⟩ with buf := [(3, 0x55#8)] } = .next t :=
  ⟨⟨rfl, rfl, rfl, rfl, rfl, fun h => nomatch h⟩, _, rfl⟩

/-! ### The checksum unit -/

theorem witness_WordsAreBigEndianAndPaddedRight : 1 < (words [0x01, 0x02, 0x03]).length := by decide

theorem witness_FoldReducesToSixteenBits : 0xFFFF < 0x10000 ∧ 0xFFFFFFFF < 2 ^ 32 := by decide

theorem witness_OnesComplementSumIsOrderAndShapeIndependent :
    (∃ w ∈ [0x0000#16, 0x0001#16], w ≠ 0#16) ∧ [0x0001#16, 0xFFFE#16].Perm [0xFFFE#16, 0x0001#16] :=
  ⟨⟨0x0001#16, by simp, by decide⟩, List.Perm.swap 0xFFFE#16 0x0001#16 []⟩

theorem witness_PseudoHeaderHasTheTwelveBytes : 65535 ≤ 65535 ∧ 20 ≤ 65535 := by decide

theorem witness_ChecksumMasksTheStoredField :
    (exampleSegment 0xF613).plen = (exampleSegment 0).plen ∧
      (∀ k, k < 24 → k ≠ 16 → k ≠ 17 →
        Memory.read (exampleSegment 0xF613).buf k = Memory.read (exampleSegment 0).buf k) ∧
      Memory.read (exampleSegment 0xF613).buf 16 ≠ Memory.read (exampleSegment 0).buf 16 := by
  decide +kernel

theorem witness_IsCorrectChecksumComparesWithTheStoredField :
    (exampleSegment 0xF613).valid = true ∧
      ((exampleSegment 0xF613).checksum 0xC0A80001 0xC0A80002).toNat = storedChecksum (exampleSegment 0xF613) ∧
      ((exampleSegment 0xF613).checksum 0xC0A80001 0xC0A80003).toNat ≠ storedChecksum (exampleSegment 0xF613) := by
  decide +kernel

theorem witness_CsumComputeRefusesAStaleField :
    (fresh 0).valid = true ∧ storedChecksum (fresh 0) = 0 ∧ received.valid = true ∧
      storedChecksum received ≠ 0 ∧ State.reset.valid = false := by decide

/-- For `ChecksumIsNeverAllOnes` and `SumToAllOnesTestIsNotThisBlocks` (V-CK-9): a stored `0xFFFF` and a sum
of `0xFFFF`. -/
theorem witness_stored_and_sum_all_ones :
    let s := holding (List.replicate 16 0 ++ [0xFF, 0xFF, 0, 0])
    s.valid = true ∧ storedChecksum s = (0xFFFF : Half).toNat ∧
      ocsum (summedWords s 0xFFE50000 0) = 0xFFFF#16 := by
  decide +kernel

theorem witness_OneChangedByteIsDetected :
    let t := (exampleSegment 0xF613).memWrite 20 [0]
    Validates (exampleSegment 0xF613) 0xC0A80001 0xC0A80002 ∧ (exampleSegment 0xF613).valid = true ∧
      t.valid = true ∧ t.plen = (exampleSegment 0xF613).plen ∧
      20 < 20 + (exampleSegment 0xF613).plen.toNat ∧
      Memory.read t.buf 20 ≠ Memory.read (exampleSegment 0xF613).buf 20 ∧
      ∀ a, a ≠ 20 → Memory.read t.buf a = Memory.read (exampleSegment 0xF613).buf a := by
  refine ⟨example_validates, by decide, by decide, by decide, by decide, by decide +kernel, fun a ha => ?_⟩
  simp only [memWrite_buf, read_writeBytes, List.length_singleton]
  rw [if_neg (by omega)]

theorem witness_SealMakesTheChecksumCorrect : (exampleSegment 0xF613).valid = true := by decide

theorem witness_AddressSensitivityIsTheHalfSum :
    (exampleSegment 0xF613).valid = true ∧ Validates (exampleSegment 0xF613) 0xC0A80001 0xC0A80002 ∧
      halfSum 0xC0A80002 % 65535 ≠ halfSum 0xC0A80003 % 65535 ∧
      halfSum 0xC0A80002 % 65535 = halfSum 0xC0A70003 % 65535 ∧
      (0xC0A80002 : Word).extractLsb' (8 * 0) 8 ≠ (0xC0A80003 : Word).extractLsb' (8 * 0) 8 ∧
      ∀ j, j < 4 → j ≠ 0 →
        (0xC0A80002 : Word).extractLsb' (8 * j) 8 = (0xC0A80003 : Word).extractLsb' (8 * j) 8 :=
  ⟨by decide, example_validates, by decide, by decide, by decide, by decide⟩

end Sys2Proof.Tests
end

section
/-! PROOFS. The statements of `00_scope.md`: how every operation ends (R9, R162, R173), and the memory
primitives (R8). -/

namespace Sys2Proof.Proofs.Scope

open Sys2Proof.Machine Sys2Proof.Safety Sys2Proof.Laws

/-! ### How every operation ends -/

/-- Whatever an operation does to `VALID`, `PLEN` and `BUF`, it ends in one response, from a state whose
ports and parameter are those it started in. -/
theorem exec_eq_next_respond (i : Instr) (s : State) :
    ∃ (u : State) (r : Response), exec i s = .next (u.respond r) ∧
      u.rspPort = s.rspPort ∧ u.cmdPort = s.cmdPort ∧ u.cfg = s.cfg := by
  by_cases hchange : changesSegment i = true
  · rcases exec_changesSegment hchange s with ⟨e, hraise⟩ | hnone | ⟨p, m, hhold, -⟩
    · exact ⟨s, _, hraise, rfl, rfl, rfl⟩
    · exact ⟨s.holdNone, _, hnone, rfl, rfl, rfl⟩
    · exact ⟨s.holdSegment p m, _, hhold, rfl, rfl, rfl⟩
  by_cases hset : isSetter i = true
  · rcases exec_setter hset s with ⟨e, hraise, -⟩ | ⟨-, hwrite, -⟩
    · exact ⟨s, _, hraise, rfl, rfl, rfl⟩
    · exact ⟨s.memWrite _ _, _, hwrite, rfl, rfl, rfl⟩
  · have hread : isReader i = true := by simp [isReader, hchange, hset]
    rcases exec_reader hread s with ⟨e, hraise⟩ | ⟨res, dout, hok⟩
    · exact ⟨s, _, hraise, rfl, rfl, rfl⟩
    · exact ⟨s, _, hok, rfl, rfl, rfl⟩

/-- Settles O11: the response every operation ends in is the only change to the ports and the parameter. -/
theorem everyOperationCompletes : Obligations.EveryOperationCompletes := by
  intro i s
  obtain ⟨u, r, hexec, hrsp, hcmd, hcfg⟩ := exec_eq_next_respond i s
  exact ⟨u.respond r, r, hexec, by rw [respond_rspPort, hrsp], hcmd, hcfg⟩

/-! ### The memory primitives -/

/-- Byte `k` of a 16-bit value is the slice of it that R8 writes at index `k`. -/
theorem getD_bytesOfHalf_eq_slice (v : Half) {k : Nat} (h : k < 2) :
    (bytesOfHalf v).getD k 0#8 = v.extractLsb' (8 * (2 - k - 1)) 8 := by
  have : k = 0 ∨ k = 1 := by omega
  rcases this with rfl | rfl <;> rfl

/-- Byte `k` of a 32-bit value is the slice of it that R8 writes at index `k`. -/
theorem getD_bytesOfWord_eq_slice (v : Word) {k : Nat} (h : k < 4) :
    (bytesOfWord v).getD k 0#8 = v.extractLsb' (8 * (4 - k - 1)) 8 := by
  have : k = 0 ∨ k = 1 ∨ k = 2 ∨ k = 3 := by omega
  rcases this with rfl | rfl | rfl | rfl <;> rfl

/-- A byte of the run written, as the byte itself. -/
theorem read_memWrite_inside (s : State) (o : Nat) {bs : List Byte} {j : Nat} (h : j < bs.length) :
    Memory.read (s.memWrite o bs).buf (o + j) = bs.getD j 0#8 :=
  BitVec.eq_of_toNat_eq (byteAt_memWrite_inside s o h)

theorem read_memWrite_singleton_same (s : State) (o : Nat) (b : Byte) :
    Memory.read (s.memWrite o [b]).buf o = b :=
  read_memWrite_inside s o (j := 0) (by simp)

theorem read_memWrite_singleton_ne (s : State) {o a : Nat} (b : Byte) (h : a ≠ o) :
    Memory.read (s.memWrite o [b]).buf a = Memory.read s.buf a :=
  read_memWrite_outside s (by rw [List.length_singleton]; omega)

theorem read_memWrite2_inside (s : State) (o : Nat) (v : Half) {k : Nat} (h : k < 2) :
    Memory.read (s.memWrite2 o v).buf (o + k) = v.extractLsb' (8 * (2 - k - 1)) 8 :=
  (read_memWrite_inside s o (by simpa using h)).trans (getD_bytesOfHalf_eq_slice v h)

theorem read_memWrite4_inside (s : State) (o : Nat) (w : Word) {k : Nat} (h : k < 4) :
    Memory.read (s.memWrite4 o w).buf (o + k) = w.extractLsb' (8 * (4 - k - 1)) 8 :=
  (read_memWrite_inside s o (by simpa using h)).trans (getD_bytesOfWord_eq_slice w h)

theorem read_memWrite2_outside (s : State) (v : Half) {o a : Nat} (h : a < o ∨ o + 2 ≤ a) :
    Memory.read (s.memWrite2 o v).buf a = Memory.read s.buf a :=
  read_memWrite_outside s (by simpa using h)

theorem read_memWrite4_outside (s : State) (w : Word) {o a : Nat} (h : a < o ∨ o + 4 ≤ a) :
    Memory.read (s.memWrite4 o w).buf a = Memory.read s.buf a :=
  read_memWrite_outside s (by simpa using h)

/-- Settles O25: a read joins the bytes most significant first, and a write is read back inside its run and
leaves what lies outside it. -/
theorem memoryPrimitivesAreBigEndian : Obligations.MemoryPrimitivesAreBigEndian := by
  intro s o v w
  exact ⟨rfl, toNat_memRead2 s o, toNat_memRead4 s o,
    fun b => ⟨read_memWrite_singleton_same s o b, fun _ ha => read_memWrite_singleton_ne s b ha⟩,
    fun _ hk => read_memWrite2_inside s o v hk, fun _ hk => read_memWrite4_inside s o w hk,
    fun _ ha => read_memWrite2_outside s v ha, fun _ ha => read_memWrite4_outside s w ha⟩

end Sys2Proof.Proofs.Scope
end

section
/-! PROOFS. What operations, events and steps can do, said once for the statements of `10_state.md`: how an
operation ends, what an event of the command port makes of the state, and who needs a segment. -/

namespace Sys2Proof.Proofs.SegmentState

open Sys2Proof.Machine Sys2Proof.Safety Sys2Proof.Laws

/-! ### Responses -/

theorem responseOk_okResponse (res : Word) (dout : List Byte) : ResponseOk (okResponse res dout) :=
  ⟨Nat.zero_le 6, fun h => absurd rfl h⟩

theorem responseOk_errResponse (e : Error) : ResponseOk (errResponse e.code) := by
  refine ⟨?_, fun _ => ⟨rfl, rfl⟩⟩
  cases e <;> decide

/-! ### How an operation ends -/

/-- An operation that is no constructor, no DISCARD and no setter reads. -/
theorem isReader_of_not {i : Instr} (hchange : ¬ changesSegment i = true) (hset : ¬ isSetter i = true) :
    isReader i = true := by
  simp [isReader, hchange, hset]

/-- Every operation does one of three things. It answers a well-formed response and changes nothing; it is a
setter and writes one run of bytes inside the held segment; or it ends the segment and holds none, or one
whose bytes lie inside it. -/
theorem exec_next_cases {i : Instr} {s t : State} (h : exec i s = .next t) :
    (∃ r, ResponseOk r ∧ t = s.respond r) ∨
    (isSetter i = true ∧ s.valid = true ∧
      (storeOf i s).1 + (storeOf i s).2.length ≤ 20 + s.plen.toNat ∧
      t = (s.memWrite (storeOf i s).1 (storeOf i s).2).respond (okResponse 0#32 [])) ∨
    (changesSegment i = true ∧
      (t = s.holdNone.respond (okResponse 0#32 []) ∨
        ∃ p m, t = (s.holdSegment p m).respond (okResponse 0#32 []) ∧
          p.toNat ≤ s.cfg.payloadMax.val ∧ Memory.wf m ∧ ∀ c ∈ m, c.1 < 20 + p.toNat)) := by
  have ends : ∀ {u : State} {r : Response}, exec i s = .next (u.respond r) → t = u.respond r :=
    fun hu => Host.Outcome.next.inj (h.symm.trans hu)
  by_cases hchange : changesSegment i = true
  · rcases exec_changesSegment hchange s with ⟨e, hraise⟩ | hnone | ⟨p, m, hhold, hbounds⟩
    · exact .inl ⟨_, responseOk_errResponse e, ends hraise⟩
    · exact .inr (.inr ⟨hchange, .inl (ends hnone)⟩)
    · exact .inr (.inr ⟨hchange, .inr ⟨p, m, ends hhold, hbounds⟩⟩)
  by_cases hset : isSetter i = true
  · rcases exec_setter hset s with ⟨e, hraise, -⟩ | ⟨hvalid, hwrite, hinside⟩
    · exact .inl ⟨_, responseOk_errResponse e, ends hraise⟩
    · exact .inr (.inl ⟨hset, hvalid, hinside, ends hwrite⟩)
  · rcases exec_reader (isReader_of_not hchange hset) s with ⟨e, hraise⟩ | ⟨res, dout, hok⟩
    · exact .inl ⟨_, responseOk_errResponse e, ends hraise⟩
    · exact .inl ⟨_, responseOk_okResponse res dout, ends hok⟩

/-- Without a segment, an operation that needs one raises `NoSegment` (R143). -/
theorem exec_needsSegment_invalid {i : Instr} {s : State} (hneeds : needsSegment i = true)
    (hvalid : s.valid = false) : exec i s = raise s .noSegment := by
  cases i with
  | new | wrap | discard | status => cases hneeds
  | _ => exact withSegment_invalid hvalid _

/-! ### How a step ends -/

/-- What the block does with the event `e`, once it is taken from the port, is `f`. -/
def Serves (e : PortEvent) (f : State → Host.Outcome State Fault Refusal) : Prop :=
  ∀ (s : State) (rest : List PortEvent), s.cmdPort = e :: rest → step s = f { s with cmdPort := rest }

theorem step_idle {s : State} (h : s.cmdPort = []) : step s = .next s := by
  simp [step, accept_nil s h]

theorem serves_command_ok {c : Command} {i : Instr} (h : decode c = .ok i) :
    Serves (.command c) (exec i) := fun s _ hport => by
  simp [step, accept_cons s _ hport, h]

theorem serves_command_error {c : Command} {e : DecodeError} (h : decode c = .error e) :
    Serves (.command c) (rejectCommand e) := fun s _ hport => by
  simp [step, accept_cons s _ hport, h]

theorem serves_reset : Serves .reset resetInput := fun s _ hport => by
  simp [step, accept_cons s _ hport]

theorem serves_resetDuring (c : Command) : Serves (.resetDuring c) resetInput := fun s _ hport => by
  simp [step, accept_cons s _ hport]

/-- The event alone decides what the step does: it executes one operation, raises `IllegalCommand`, stops, or
resets. -/
theorem serves_cases (e : PortEvent) :
    (∃ i, Serves e (exec i)) ∨ Serves e (raise · .illegalCommand) ∨
      Serves e (fun _ => .fault .oversizedData) ∨ Serves e resetInput := by
  cases e with
  | reset => exact .inr (.inr (.inr serves_reset))
  | resetDuring c => exact .inr (.inr (.inr (serves_resetDuring c)))
  | command c =>
    cases hdecode : decode c with
    | ok i => exact .inl ⟨i, serves_command_ok hdecode⟩
    | error err =>
      have hserves := serves_command_error hdecode
      cases err with
      | oversizedData => exact .inr (.inr (.inl hserves))
      | _ => exact .inr (.inl hserves)

end Sys2Proof.Proofs.SegmentState
end

section
/-! PROOFS. The invariant of the block's states holds at reset and every step keeps it. -/

namespace Sys2Proof.Proofs.SegmentState

open Sys2Proof.Machine Sys2Proof.Safety Sys2Proof.Laws

variable {s t : State}

/-- The invariant where no segment is held and `PLEN = 0`: only the memory's form and the responses count. -/
theorem inv_of_no_segment (hvalid : s.valid = false) (hplen : s.plen = 0#16) (hbuf : s.buf = [])
    (hrsp : ∀ r ∈ s.rspPort, ResponseOk r) : Inv s where
  memory := hbuf ▸ wf_nil
  capacity := by simp [hplen]
  empty := fun _ => hplen
  inside := fun h => absurd h (by simp [hvalid])
  responses := hrsp

/-- The pending events do not enter the invariant. -/
theorem inv_cmdPort (h : Inv s) (cs : List PortEvent) : Inv { s with cmdPort := cs } :=
  ⟨h.memory, h.capacity, h.empty, h.inside, h.responses⟩

theorem inv_respond (h : Inv s) {r : Response} (hr : ResponseOk r) : Inv (s.respond r) where
  memory := h.memory
  capacity := h.capacity
  empty := h.empty
  inside := h.inside
  responses := fun q hq => by
    rcases List.mem_append.1 hq with hq | hq
    · exact h.responses q hq
    · exact List.mem_singleton.1 hq ▸ hr

theorem inv_holdNone (h : Inv s) : Inv s.holdNone :=
  inv_of_no_segment rfl rfl rfl h.responses

theorem inv_holdSegment (h : Inv s) {p : Half} {m : Memory} (hp : p.toNat ≤ s.cfg.payloadMax.val)
    (hwf : Memory.wf m) (hm : ∀ c ∈ m, c.1 < 20 + p.toNat) : Inv (s.holdSegment p m) where
  memory := hwf
  capacity := hp
  empty := fun hv => nomatch hv
  inside := fun _ => hm
  responses := h.responses

theorem inv_memWrite (h : Inv s) {o : Nat} {bs : List Byte} (hrun : o + bs.length ≤ 20 + s.plen.toNat) :
    Inv (s.memWrite o bs) where
  memory := wf_writeBytes h.memory o bs
  capacity := h.capacity
  empty := h.empty
  inside := fun hv c hc => by
    rcases mem_writeBytes hc with ⟨-, hc⟩ | hc
    · exact hc.trans_le hrun
    · exact h.inside hv c hc
  responses := h.responses

/-- Every operation keeps the invariant, by the three things it can do. -/
theorem exec_keeps_inv {i : Instr} (h : Inv s) (hexec : exec i s = .next t) : Inv t := by
  have hok := responseOk_okResponse 0#32 []
  rcases exec_next_cases hexec with
    ⟨r, hr, rfl⟩ | ⟨-, -, hrun, rfl⟩ | ⟨-, rfl | ⟨p, m, rfl, hp, hwf, hm⟩⟩
  · exact inv_respond h hr
  · exact inv_respond (inv_memWrite h hrun) hok
  · exact inv_respond (inv_holdNone h) hok
  · exact inv_respond (inv_holdSegment h hp hwf hm) hok

theorem resetInput_keeps_inv (hreset : resetInput s = .next t) : Inv t := by
  cases hreset
  exact inv_of_no_segment rfl rfl rfl fun _ hr => nomatch hr

/-- Settles O18: the event taken leaves the invariant, and then the operation, the response `IllegalCommand`
or the reset keeps it. -/
theorem everyStepKeepsTheInvariant : Obligations.EveryStepKeepsTheInvariant := by
  intro s t h hstep
  cases hport : s.cmdPort with
  | nil =>
    cases (step_idle hport).symm.trans hstep
    exact h
  | cons e rest =>
    have htaken := inv_cmdPort h rest
    rcases serves_cases e with ⟨i, hserves⟩ | hserves | hserves | hserves <;>
      have hdone := (hserves s rest hport).symm.trans hstep
    · exact exec_keeps_inv htaken hdone
    · cases hdone
      exact inv_respond htaken (responseOk_errResponse .illegalCommand)
    · cases hdone
    · exact resetInput_keeps_inv hdone

/-- Settles O17: reset holds no segment, lists no byte and has no response pending. -/
theorem resetSatisfiesTheInvariant : Obligations.ResetSatisfiesTheInvariant :=
  inv_of_no_segment rfl rfl rfl fun _ hr => nomatch hr

end Sys2Proof.Proofs.SegmentState
end

section
/-! PROOFS. What an operation's outcome does not depend on: the segment held before a NEW or WRAP that
succeeds, `BUF` where no segment is held, and the contents of the two ports. -/

namespace Sys2Proof.Proofs.SegmentState

open Sys2Proof.Machine Sys2Proof.Safety Sys2Proof.Laws

/-! ### The outcomes of NEW and WRAP -/

theorem exec_new_exceeds {n : Word} {s : State} (h : s.cfg.payloadMax.val < n.toNat) :
    exec (.new n) s = raise s .capacityExceeded :=
  if_pos h

theorem exec_new_fits {n : Word} {s : State} (h : n.toNat ≤ s.cfg.payloadMax.val) :
    exec (.new n) s = returnDone (s.holdSegment (n.extractLsb' 0 16) Memory.zeroed) :=
  if_neg (Nat.not_lt.2 h)

theorem exec_wrap_short {data : List Byte} {s : State} (h : data.length < 20) :
    exec (.wrap data) s = raise s .bufferTooShort :=
  if_pos h

theorem exec_wrap_exceeds {data : List Byte} {s : State} (hmin : 20 ≤ data.length)
    (h : 20 + s.cfg.payloadMax.val < data.length) : exec (.wrap data) s = raise s .capacityExceeded :=
  (if_neg (Nat.not_lt.2 hmin)).trans (if_pos h)

theorem exec_wrap_fits {data : List Byte} {s : State} (hmin : 20 ≤ data.length)
    (hmax : data.length ≤ 20 + s.cfg.payloadMax.val) :
    exec (.wrap data) s =
      returnDone (s.holdSegment (BitVec.ofNat 16 (data.length - 20)) (Memory.writeBytes [] 0 data)) :=
  (if_neg (Nat.not_lt.2 hmin)).trans (if_neg (Nat.not_lt.2 hmax))

/-! ### The old segment -/

/-- Holding a segment writes `VALID`, `PLEN` and `BUF`, so only the other fields of the start remain. -/
theorem holdSegment_congr {s u : State} (hcfg : s.cfg = u.cfg) (hcmd : s.cmdPort = u.cmdPort)
    (hrsp : s.rspPort = u.rspPort) (p : Half) (m : Memory) : s.holdSegment p m = u.holdSegment p m := by
  simp [State.holdSegment, hcfg, hcmd, hrsp]

/-- Settles O24: both operations end in `holdSegment`, which forgets the segment before. -/
theorem newAndWrapForgetTheOldSegment : Obligations.NewAndWrapForgetTheOldSegment := by
  intro s u hcfg hcmd hrsp
  refine ⟨fun n hn => ?_, fun data hmin hmax => ?_⟩
  · rw [exec_new_fits hn, exec_new_fits (hcfg ▸ hn), holdSegment_congr hcfg hcmd hrsp]
  · rw [exec_wrap_fits hmin hmax, exec_wrap_fits hmin (hcfg ▸ hmax), holdSegment_congr hcfg hcmd hrsp]

/-! ### `BUF` without a segment -/

/-- Two states that a host cannot tell apart are equal once a segment is held. -/
theorem sameToHost_eq {s u : State} (h : SameToHost s u) (hvalid : s.valid = true) : s = u := by
  obtain ⟨hcfg, hval, hplen, hcmd, hrsp, hbuf⟩ := h
  cases s
  cases u
  simp_all

theorem sameToHost_refl (s : State) : SameToHost s s := ⟨rfl, rfl, rfl, rfl, rfl, fun _ => rfl⟩

theorem sameToHost_cmdPort {s u : State} (h : SameToHost s u) (cs : List PortEvent) :
    SameToHost { s with cmdPort := cs } { u with cmdPort := cs } := by
  obtain ⟨hcfg, hval, hplen, -, hrsp, hbuf⟩ := h
  exact ⟨hcfg, hval, hplen, rfl, hrsp, hbuf⟩

theorem sameToHost_respond {s u : State} (h : SameToHost s u) (r : Response) :
    SameToHost (s.respond r) (u.respond r) := by
  obtain ⟨hcfg, hval, hplen, hcmd, hrsp, hbuf⟩ := h
  exact ⟨hcfg, hval, hplen, hcmd, congrArg (· ++ [r]) hrsp, hbuf⟩

theorem sameToHost_holdNone {s u : State} (h : SameToHost s u) : SameToHost s.holdNone u.holdNone := by
  obtain ⟨hcfg, -, -, hcmd, hrsp, -⟩ := h
  exact ⟨hcfg, rfl, rfl, hcmd, hrsp, fun _ => rfl⟩

theorem sameToHost_holdSegment {s u : State} (h : SameToHost s u) (p : Half) (m : Memory) :
    SameToHost (s.holdSegment p m) (u.holdSegment p m) := by
  obtain ⟨hcfg, -, -, hcmd, hrsp, -⟩ := h
  exact holdSegment_congr hcfg hcmd hrsp p m ▸ sameToHost_refl _

/-- Both outcomes are next states, and a host cannot tell them apart. -/
def SameOutcomeToHost (o o' : Host.Outcome State Fault Refusal) : Prop :=
  ∃ t t', o = .next t ∧ o' = .next t' ∧ SameToHost t t'

theorem sameOutcome_returnOk {s u : State} (h : SameToHost s u) (res : Word) (dout : List Byte) :
    SameOutcomeToHost (returnOk s res dout) (returnOk u res dout) :=
  ⟨_, _, rfl, rfl, sameToHost_respond h _⟩

theorem sameOutcome_raise {s u : State} (h : SameToHost s u) (e : Error) :
    SameOutcomeToHost (raise s e) (raise u e) :=
  ⟨_, _, rfl, rfl, sameToHost_respond h _⟩

theorem sameOutcome_new {s u : State} (h : SameToHost s u) (n : Word) :
    SameOutcomeToHost (exec (.new n) s) (exec (.new n) u) := by
  have hcfg : s.cfg = u.cfg := h.1
  by_cases hn : n.toNat ≤ s.cfg.payloadMax.val
  · rw [exec_new_fits hn, exec_new_fits (hcfg ▸ hn)]
    exact sameOutcome_returnOk (sameToHost_holdSegment h _ _) _ _
  · rw [exec_new_exceeds (by omega), exec_new_exceeds (hcfg ▸ by omega)]
    exact sameOutcome_raise h _

theorem sameOutcome_wrap {s u : State} (h : SameToHost s u) (data : List Byte) :
    SameOutcomeToHost (exec (.wrap data) s) (exec (.wrap data) u) := by
  have hcfg : s.cfg = u.cfg := h.1
  by_cases hmin : data.length < 20
  · rw [exec_wrap_short hmin, exec_wrap_short hmin]
    exact sameOutcome_raise h _
  rw [Nat.not_lt] at hmin
  by_cases hmax : data.length ≤ 20 + s.cfg.payloadMax.val
  · rw [exec_wrap_fits hmin hmax, exec_wrap_fits hmin (hcfg ▸ hmax)]
    exact sameOutcome_returnOk (sameToHost_holdSegment h _ _) _ _
  · rw [Nat.not_le] at hmax
    rw [exec_wrap_exceeds hmin hmax, exec_wrap_exceeds hmin (hcfg ▸ hmax)]
    exact sameOutcome_raise h _

theorem sameOutcome_status {s u : State} (h : SameToHost s u) :
    SameOutcomeToHost (exec .status s) (exec .status u) := by
  have ⟨_, hval, hplen, _⟩ := h
  have hword : statusWord s.valid s.plen = statusWord u.valid u.plen := by rw [hval, hplen]
  show SameOutcomeToHost (returnOk s (statusWord s.valid s.plen) []) (returnOk u _ [])
  rw [hword]
  exact sameOutcome_returnOk h _ _

/-- Every operation carries states a host cannot tell apart to such states. With a segment held they are one
state; without one, an operation that needs a segment raises, and the other four read no byte of `BUF`. -/
theorem sameOutcome_exec {s u : State} (h : SameToHost s u) (i : Instr) :
    SameOutcomeToHost (exec i s) (exec i u) := by
  by_cases hvalid : s.valid = true
  · obtain ⟨t, _, hexec, -⟩ := Scope.everyOperationCompletes i s
    rw [← sameToHost_eq h hvalid]
    exact ⟨t, t, hexec, hexec, sameToHost_refl t⟩
  rw [Bool.not_eq_true] at hvalid
  by_cases hneeds : needsSegment i = true
  · have ⟨_, hval, _⟩ := h
    rw [exec_needsSegment_invalid hneeds hvalid, exec_needsSegment_invalid hneeds (hval ▸ hvalid)]
    exact sameOutcome_raise h _
  cases i with
  | new n => exact sameOutcome_new h n
  | wrap data => exact sameOutcome_wrap h data
  | discard => exact sameOutcome_returnOk (sameToHost_holdNone h) _ _
  | status => exact sameOutcome_status h
  | _ => exact absurd rfl hneeds

theorem sameOutcome_resetInput {s u : State} (h : SameToHost s u) :
    SameOutcomeToHost (resetInput s) (resetInput u) := by
  obtain ⟨hcfg, -, -, hcmd, -, -⟩ := h
  exact ⟨_, _, rfl, rfl, hcfg, rfl, rfl, hcmd, rfl, fun _ => rfl⟩

/-- Settles O45: both states take the same event, which is served alike in both. -/
theorem bufIsUnobservableWithoutASegment : Obligations.BufIsUnobservableWithoutASegment := by
  intro s u s' h hstep
  have ⟨_, _, _, hports, _⟩ := h
  suffices hsame : SameOutcomeToHost (step s) (step u) by
    obtain ⟨t, t', ht, ht', htt⟩ := hsame
    cases ht.symm.trans hstep
    exact ⟨t', ht', htt⟩
  cases hport : s.cmdPort with
  | nil =>
    rw [step_idle hport, step_idle (hports ▸ hport)]
    exact ⟨_, _, rfl, rfl, h⟩
  | cons e rest =>
    have htaken := sameToHost_cmdPort h rest
    rcases serves_cases e with ⟨i, hserves⟩ | hserves | hserves | hserves <;>
      rw [hserves s rest hport] at hstep ⊢ <;> rw [hserves u rest (hports ▸ hport)]
    · exact sameOutcome_exec htaken i
    · exact sameOutcome_raise htaken _
    · cases hstep
    · exact sameOutcome_resetInput htaken

/-! ### The ports -/

/-- The state with other pending commands and other earlier responses. -/
def withPorts (s : State) (cs : List PortEvent) (rs : List Response) : State :=
  { s with cmdPort := cs, rspPort := rs }

/-- The outcome `o'` is `o` with its ports replaced: where `o` adds one response to `before`, `o'` adds the
same response to `rs`. -/
def PortsReplaced (before : List Response) (cs : List PortEvent) (rs : List Response)
    (o o' : Host.Outcome State Fault Refusal) : Prop :=
  ∀ (t : State) (r : Response), o = .next t → t.rspPort = before ++ [r] →
    o' = .next (withPorts t cs (rs ++ [r]))

variable {s : State} {cs : List PortEvent} {rs : List Response}

theorem portsReplaced_respond (r : Response) :
    PortsReplaced s.rspPort cs rs (.next (s.respond r)) (.next ((withPorts s cs rs).respond r)) := by
  intro t q ht hq
  cases ht
  rw [← respond_inj hq]
  rfl

theorem portsReplaced_returnOk {u : State} (hu : u.rspPort = s.rspPort) (res : Word) (dout : List Byte) :
    PortsReplaced s.rspPort cs rs (returnOk u res dout) (returnOk (withPorts u cs rs) res dout) :=
  hu ▸ portsReplaced_respond _

theorem portsReplaced_raise (e : Error) :
    PortsReplaced s.rspPort cs rs (raise s e) (raise (withPorts s cs rs) e) :=
  portsReplaced_respond _

theorem portsReplaced_ite {before : List Response} {p : Prop} [Decidable p]
    {a b a' b' : Host.Outcome State Fault Refusal} (ha : PortsReplaced before cs rs a a')
    (hb : PortsReplaced before cs rs b b') :
    PortsReplaced before cs rs (if p then a else b) (if p then a' else b') := by
  by_cases hp : p
  · simpa [hp] using ha
  · simpa [hp] using hb

theorem portsReplaced_withSegment {b b' : Host.Outcome State Fault Refusal}
    (h : PortsReplaced s.rspPort cs rs b b') :
    PortsReplaced s.rspPort cs rs (withSegment s b) (withSegment (withPorts s cs rs) b') :=
  portsReplaced_ite h (portsReplaced_raise _)

/-- No operation reads a port: each is made of checks of `VALID`, `PLEN`, `BUF` and the parameter, and of
ways to end that add one response. -/
theorem portsReplaced_exec (i : Instr) :
    PortsReplaced s.rspPort cs rs (exec i s) (exec i (withPorts s cs rs)) := by
  cases i with
  | new => exact portsReplaced_ite (portsReplaced_raise _) (portsReplaced_returnOk rfl _ _)
  | wrap =>
    exact portsReplaced_ite (portsReplaced_raise _)
      (portsReplaced_ite (portsReplaced_raise _) (portsReplaced_returnOk rfl _ _))
  | discard | status => exact portsReplaced_returnOk rfl _ _
  | setPayload | csumCompute =>
    exact portsReplaced_withSegment
      (portsReplaced_ite (portsReplaced_returnOk rfl _ _) (portsReplaced_raise _))
  | _ => exact portsReplaced_withSegment (portsReplaced_returnOk rfl _ _)

/-- Settles O44: replacing the contents of the ports replaces them in the outcome and changes nothing else. -/
theorem noHiddenStateInfluencesAnOperation : Obligations.NoHiddenStateInfluencesAnOperation :=
  fun i _ t r _ _ hexec hrsp => portsReplaced_exec i t r hexec hrsp

end Sys2Proof.Proofs.SegmentState
end

section
/-! PROOFS. The views of the header (R24 to R27): the getters are slices of its 160 bits, a setter leaves
every field but its own alone, and the two views without an operation are written by construction only. -/

namespace Sys2Proof.Proofs.SegmentState

open Sys2Proof.Machine Sys2Proof.Safety Sys2Proof.Laws

/-! ### The header as one vector -/

/-- The vector `hdr` holds the 20 header bytes of `s`, the first byte most significant (R27). -/
def HoldsHeader (s : State) (hdr : BitVec 160) : Prop :=
  ∀ k, k < 20 → hdr.extractLsb' (152 - 8 * k) 8 = Memory.read s.buf k

/-- A 32-bit field is its two 16-bit halves. -/
theorem memRead4_eq_halves (s : State) (o : Nat) : s.memRead4 o = s.memRead2 o ++ s.memRead2 (o + 2) :=
  BitVec.eq_of_toNat_eq (by
    rw [toNat_memRead4, toNat_concat, toNat_memRead2, toNat_memRead2]
    ring)

section Header

variable {s : State} {hdr : BitVec 160} (h : HoldsHeader s hdr)
include h

theorem memRead2_eq_slice {o : Nat} (ho : o ≤ 18) : s.memRead2 o = hdr.extractLsb' (144 - 8 * o) 16 := by
  have h0 := h o (by omega)
  have h1 := h (o + 1) (by omega)
  rw [show 152 - 8 * (o + 1) = 144 - 8 * o by omega] at h1
  rw [State.memRead2, halfOfBytes, ← h0, ← h1]
  exact BitVec.extractLsb'_append_extractLsb'_eq_extractLsb' (by omega)

theorem memRead4_eq_slice {o : Nat} (ho : o ≤ 16) : s.memRead4 o = hdr.extractLsb' (128 - 8 * o) 32 := by
  rw [memRead4_eq_halves, memRead2_eq_slice h (by omega), memRead2_eq_slice h (by omega),
    show 144 - 8 * (o + 2) = 128 - 8 * o by omega]
  exact BitVec.extractLsb'_append_extractLsb'_eq_extractLsb' (by omega)

theorem highNibble_eq_slice {o : Nat} (ho : o < 20) :
    highNibble (s.memRead1 o) = hdr.extractLsb' (156 - 8 * o) 4 := by
  rw [State.memRead1, ← h o ho, highNibble]
  ext i hi
  simp [show 4 + i < 8 by omega, show 152 - 8 * o + (4 + i) = 156 - 8 * o + i by omega]

end Header

/-- Settles O29: each getter reads its field, which is a slice of the header vector. -/
theorem gettersAreSlicesOfTheHeader : Obligations.GettersAreSlicesOfTheHeader := by
  intro s hdr hvalid h
  have answers : ∀ {v w : Word}, v = w →
      withSegment s (returnOk s v []) = .next (s.respond (okResponse w [])) := fun hv =>
    hv ▸ withSegment_valid hvalid _
  have half : ∀ {o : Nat}, o ≤ 18 → zext32 (s.memRead2 o) = zext32 (hdr.extractLsb' (144 - 8 * o) 16) :=
    fun ho => congrArg zext32 (memRead2_eq_slice h ho)
  exact ⟨answers (half (o := 0) (by omega)), answers (half (o := 2) (by omega)),
    answers (memRead4_eq_slice h (o := 4) (by omega)), answers (memRead4_eq_slice h (o := 8) (by omega)),
    answers (congrArg zext32 (highNibble_eq_slice h (o := 12) (by omega))),
    answers (congrArg zext32 (h 13 (by omega)).symm),
    answers (half (o := 14) (by omega)), answers (half (o := 16) (by omega))⟩

/-! ### The fields of the getters -/

/-- Where the field of a getter begins and how many bytes it has (R24). -/
def fieldOf (g : Instr) : Nat × Nat :=
  match g with
  | .getSrcPort => (0, 2)
  | .getDstPort => (2, 2)
  | .getSeq => (4, 4)
  | .getAck => (8, 4)
  | .getDataOffset => (12, 1)
  | .getFlag => (13, 1)
  | .getWindow => (14, 2)
  | .getChecksum => (16, 2)
  | _ => (0, 0)

/-- The byte at `a` belongs to the field of the getter `g`. -/
abbrev InField (g : Instr) (a : Nat) : Prop := (fieldOf g).1 ≤ a ∧ a < (fieldOf g).1 + (fieldOf g).2

theorem memRead2_congr {s t : State} {o : Nat}
    (h : ∀ a, o ≤ a ∧ a < o + 2 → Memory.read t.buf a = Memory.read s.buf a) :
    t.memRead2 o = s.memRead2 o := by
  rw [State.memRead2, State.memRead2, h o (by omega), h (o + 1) (by omega)]

theorem memRead4_congr {s t : State} {o : Nat}
    (h : ∀ a, o ≤ a ∧ a < o + 4 → Memory.read t.buf a = Memory.read s.buf a) :
    t.memRead4 o = s.memRead4 o := by
  rw [memRead4_eq_halves, memRead4_eq_halves, memRead2_congr fun a ha => h a (by omega),
    memRead2_congr fun a ha => h a (by omega)]

/-- Two states that hold a segment alike and read the same value answer it alike. -/
theorem answers_alike {s t : State} (hvalid : t.valid = s.valid) {v w : Word} (hread : w = v) :
    ∃ r, withSegment s (returnOk s v []) = .next (s.respond r) ∧
      withSegment t (returnOk t w []) = .next (t.respond r) := by
  cases hv : s.valid with
  | true => exact ⟨_, withSegment_valid hv _, hread ▸ withSegment_valid (hvalid.trans hv) _⟩
  | false => exact ⟨_, withSegment_invalid hv _, withSegment_invalid (hvalid.trans hv) _⟩

/-- A getter depends on `VALID` and the bytes of its field alone. -/
theorem getter_congr {g : Instr} (hg : g ∈ getters) {s t : State} (hvalid : t.valid = s.valid)
    (hbytes : ∀ a, InField g a → Memory.read t.buf a = Memory.read s.buf a) :
    ∃ r, exec g s = .next (s.respond r) ∧ exec g t = .next (t.respond r) := by
  cases g with
  | getSrcPort | getDstPort | getWindow | getChecksum =>
    exact answers_alike hvalid (congrArg zext32 (memRead2_congr hbytes))
  | getSeq | getAck => exact answers_alike hvalid (memRead4_congr hbytes)
  | getDataOffset =>
    exact answers_alike hvalid (congrArg (zext32 <| highNibble ·) (hbytes 12 (by decide)))
  | getFlag => exact answers_alike hvalid (congrArg zext32 (hbytes 13 (by decide)))
  | _ => simp [getters] at hg

/-- The fields of two getters do not overlap (R25). -/
theorem fields_disjoint : ∀ g ∈ getters, ∀ g' ∈ getters, g ≠ g' →
    (fieldOf g).1 + (fieldOf g).2 ≤ (fieldOf g').1 ∨ (fieldOf g').1 + (fieldOf g').2 ≤ (fieldOf g).1 := by
  decide

/-- The fields of the getters end before the urgent pointer (R26). -/
theorem field_ends_before_urgent : ∀ g ∈ getters, (fieldOf g).1 + (fieldOf g).2 ≤ 18 := by
  decide

/-! ### What a setter writes -/

/-- A setter writes the field of its getter, or, having none, from the payload's first byte on (R111). -/
theorem storeOf_eq_field {i : Instr} (hset : isSetter i = true) (s : State) :
    (∃ g ∈ getters, getterOf i = some g ∧ fieldOf g = ((storeOf i s).1, (storeOf i s).2.length)) ∨
      20 ≤ (storeOf i s).1 := by
  cases i with
  | setPayload => exact .inr le_rfl
  | setSrcPort | setDstPort | setSeq | setAck | setDataOffset | setFlag | setWindow | setChecksum =>
    exact .inl ⟨_, by decide, rfl, rfl⟩
  | _ => cases hset

/-- A byte of another getter's field lies outside the run a setter writes. -/
theorem outside_store_of_inField {i g : Instr} (hset : isSetter i = true) (hg : g ∈ getters)
    (hown : getterOf i ≠ some g) (s : State) {a : Nat} (ha : InField g a) :
    a < (storeOf i s).1 ∨ (storeOf i s).1 + (storeOf i s).2.length ≤ a := by
  obtain ⟨hlow, hhigh⟩ := ha
  rcases storeOf_eq_field hset s with ⟨g', hg', hown', hfield⟩ | hpayload
  · have hne : g ≠ g' := fun heq => hown (heq ▸ hown')
    have hdisjoint := fields_disjoint g hg g' hg' hne
    rw [hfield] at hdisjoint
    omega
  · have hend := field_ends_before_urgent g hg
    omega

/-- The urgent pointer lies outside the run a setter writes. -/
theorem outside_store_of_urgent {i : Instr} (hset : isSetter i = true) (s : State) {a : Nat}
    (hlow : 18 ≤ a) (hhigh : a < 20) :
    a < (storeOf i s).1 ∨ (storeOf i s).1 + (storeOf i s).2.length ≤ a := by
  rcases storeOf_eq_field hset s with ⟨g, hg, -, hfield⟩ | hpayload
  · have hend := field_ends_before_urgent g hg
    rw [hfield] at hend
    omega
  · omega

theorem not_changesSegment_of_isSetter {i : Instr} (hset : isSetter i = true) :
    changesSegment i = false := by
  cases i with
  | new | wrap | discard => cases hset
  | _ => rfl

/-- Settles O37: a setter that raises changes no byte, and one that writes does so outside the field of every
getter but its own. -/
theorem settersLeaveEveryOtherFieldAlone : Obligations.SettersLeaveEveryOtherFieldAlone := by
  intro i s t hset hexec g hg hown
  rcases exec_next_cases hexec with ⟨r, -, rfl⟩ | ⟨-, -, -, rfl⟩ | ⟨hchange, -⟩
  · exact getter_congr hg rfl fun _ _ => rfl
  · exact getter_congr hg rfl fun a ha =>
      read_memWrite_outside s (outside_store_of_inField hset hg hown s ha)
  · exact absurd hchange (by simp [not_changesSegment_of_isSetter hset])

/-! ### The views without an operation -/

/-- A value placed in the high nibble leaves the low nibble as it was (R105). -/
theorem low_nibble_or_toHighNibble (b : Byte) (v : BitVec 4) :
    (b ||| toHighNibble v).toNat % 16 = b.toNat % 16 := by
  have hlow : (toHighNibble v).toNat % 2 ^ 4 = 0 := by
    simp [toHighNibble, Nat.shiftLeft_eq]
  rw [BitVec.toNat_or, show 16 = 2 ^ 4 from rfl, Nat.or_mod_two_pow, hlow, Nat.or_zero]

theorem getterOf_eq_getDataOffset {i : Instr} (h : getterOf i = some .getDataOffset) :
    ∃ v, i = .setDataOffset v := by
  cases i with
  | setDataOffset v => exact ⟨v, rfl⟩
  | _ => simp [getterOf] at h

/-- A setter keeps the reserved nibble: SET_DATA_OFFSET only adds to the high nibble of its byte, and no other
setter writes that byte. -/
theorem setter_keeps_reserved {i : Instr} (hset : isSetter i = true) (s : State) :
    byteAt (s.memWrite (storeOf i s).1 (storeOf i s).2) 12 % 16 = byteAt s 12 % 16 := by
  by_cases hown : getterOf i = some .getDataOffset
  · obtain ⟨v, rfl⟩ := getterOf_eq_getDataOffset hown
    have hbyte : byteAt (s.memWrite 12 [s.memRead1 12 ||| toHighNibble v]) 12 = _ :=
      byteAt_memWrite_inside s 12 (j := 0) Nat.one_pos
    exact (congrArg (· % 16) hbyte).trans (low_nibble_or_toHighNibble _ v)
  · have houtside := outside_store_of_inField hset (g := .getDataOffset) (by decide) hown s
      (a := 12) (by decide)
    rw [byteAt, read_memWrite_outside s houtside, byteAt]

/-- Settles O35: what is left of the operations raises, reads or is a setter, and no setter writes the urgent
pointer or changes the reserved nibble. -/
theorem urgentAndReservedAreWrittenOnlyByConstruction :
    Obligations.UrgentAndReservedAreWrittenOnlyByConstruction := by
  intro i s t hexec hkeep
  rcases exec_next_cases hexec with ⟨r, -, rfl⟩ | ⟨hset, -, -, rfl⟩ | ⟨hchange, -⟩
  · exact ⟨rfl, rfl, rfl⟩
  · have urgent : ∀ a, 18 ≤ a → a < 20 → Memory.read (s.memWrite _ _).buf a = Memory.read s.buf a :=
      fun a hlow hhigh => read_memWrite_outside s (outside_store_of_urgent hset s hlow hhigh)
    exact ⟨urgent 18 (by decide) (by decide), urgent 19 (by decide) (by decide),
      setter_keeps_reserved hset s⟩
  · exact absurd hchange (by simp [hkeep])

end Sys2Proof.Proofs.SegmentState
end

section
/-! PROOFS. The statements of `20_memory.md`: pending commands are answered in the order presented (R51), and
running a reader or a setter twice is as running it once (R48). -/

namespace Sys2Proof.Proofs.MemoryAccess

open Sys2Proof.Machine Sys2Proof.Safety Sys2Proof.Laws Sys2Proof.Proofs.SegmentState

/-! ### Readers -/

/-- An operation that only answered is, run again, an operation with one more response on its port, which it
does not read. -/
theorem exec_repeats {i : Instr} {s : State} {r : Response} (h : exec i s = .next (s.respond r)) :
    exec i (s.respond r) = .next ((s.respond r).respond r) :=
  portsReplaced_exec i (cs := s.cmdPort) (rs := s.rspPort ++ [r]) _ r h rfl

/-- A reader changes nothing but the response port (R90). -/
theorem reader_only_responds {i : Instr} (hread : isReader i = true) (s : State) :
    ∃ r, exec i s = .next (s.respond r) := by
  rcases exec_reader hread s with ⟨e, hraise⟩ | ⟨res, dout, hok⟩
  · exact ⟨_, hraise⟩
  · exact ⟨_, hok⟩

/-- Settles O30: a reader only adds its response, which does not enter the second run. -/
theorem readersHaveNoSideEffect : Obligations.ReadersHaveNoSideEffect := by
  intro i s hread
  obtain ⟨r, hexec⟩ := reader_only_responds hread s
  exact ⟨r, hexec, exec_repeats hexec⟩

/-! ### Setters -/

/-- A setter leaves `VALID` and `PLEN` alone (R100). -/
theorem setter_keeps_valid_plen {i : Instr} {s t : State} (hset : isSetter i = true)
    (hexec : exec i s = .next t) : t.valid = s.valid ∧ t.plen = s.plen := by
  rcases exec_setter hset s with ⟨e, hraise, -⟩ | ⟨-, hwrite, -⟩
  · cases hraise.symm.trans hexec
    exact ⟨rfl, rfl⟩
  · cases hwrite.symm.trans hexec
    exact ⟨rfl, rfl⟩

theorem needsSegment_of_isSetter {i : Instr} (hset : isSetter i = true) : needsSegment i = true := by
  cases i with
  | new | wrap | discard | status => cases hset
  | _ => rfl

/-- Whether a setter raises, and what, depends on `VALID` and `PLEN` alone: from two states that agree on them
it raises the same error or writes in both. -/
theorem setter_alike {i : Instr} (hset : isSetter i = true) {s t : State} (hvalid : t.valid = s.valid)
    (hplen : t.plen = s.plen) :
    (∃ e, exec i s = raise s e ∧ exec i t = raise t e) ∨
      (exec i s = returnDone (s.memWrite (storeOf i s).1 (storeOf i s).2) ∧
        exec i t = returnDone (t.memWrite (storeOf i t).1 (storeOf i t).2)) := by
  cases hv : s.valid with
  | false =>
    have hneeds := needsSegment_of_isSetter hset
    exact .inl ⟨.noSegment, exec_needsSegment_invalid hneeds hv,
      exec_needsSegment_invalid hneeds (hvalid.trans hv)⟩
  | true =>
    have body : ∀ b b', withSegment s b = b ∧ withSegment t b' = b' := fun b b' =>
      ⟨withSegment_valid hv b, withSegment_valid (hvalid.trans hv) b'⟩
    cases i with
    | setPayload data =>
      obtain ⟨hs, ht⟩ := body _ _
      by_cases hlen : data.length = s.plen.toNat
      · exact .inr ⟨hs.trans (if_pos hlen), ht.trans (if_pos (hplen ▸ hlen))⟩
      · exact .inl ⟨_, hs.trans (if_neg hlen), ht.trans (if_neg (hplen ▸ hlen))⟩
    | setSrcPort | setDstPort | setSeq | setAck | setDataOffset | setFlag | setWindow | setChecksum =>
      exact .inr (body _ _)
    | _ => cases hset

/-- After a setter has written, it would write the same bytes again. Only SET_DATA_OFFSET reads before it
writes, and ORing the same bits in a second time adds none (R105). -/
theorem storeOf_after_store {i : Instr} (hset : isSetter i = true) (s : State) (r : Response) :
    storeOf i ((s.memWrite (storeOf i s).1 (storeOf i s).2).respond r) = storeOf i s := by
  cases i with
  | setDataOffset v =>
    have hread : (s.memWrite 12 [s.memRead1 12 ||| toHighNibble v]).memRead1 12 =
        s.memRead1 12 ||| toHighNibble v := Scope.read_memWrite_singleton_same s 12 _
    simp [storeOf, hread, BitVec.or_assoc]
  | setSrcPort | setDstPort | setSeq | setAck | setFlag | setWindow | setChecksum | setPayload => rfl
  | _ => cases hset

/-- Writing the bytes a run already holds changes no byte. -/
theorem sameBytes_memWrite_again (s : State) (o : Nat) (bs : List Byte) :
    SameBytes (s.memWrite o bs) ((s.memWrite o bs).memWrite o bs) := by
  intro a
  by_cases hin : o ≤ a ∧ a < o + bs.length
  · obtain ⟨j, rfl⟩ := Nat.exists_eq_add_of_le hin.1
    have hj : j < bs.length := by omega
    rw [Scope.read_memWrite_inside _ o hj, Scope.read_memWrite_inside _ o hj]
  · exact read_memWrite_outside _ (by omega)

/-- Settles O38: the second run raises as the first did, or writes the same bytes at the same place. -/
theorem settersAreIdempotent : Obligations.SettersAreIdempotent := by
  intro i s t hset hexec
  obtain ⟨hvalid, hplen⟩ := setter_keeps_valid_plen hset hexec
  rcases setter_alike hset hvalid hplen with ⟨e, -, hagain⟩ | ⟨hwrite, hagain⟩
  · exact ⟨t.respond _, hagain, fun _ => rfl, rfl, rfl⟩
  · cases hwrite.symm.trans hexec
    rw [storeOf_after_store hset] at hagain
    exact ⟨_, hagain, sameBytes_memWrite_again s _ _, rfl, rfl⟩

/-! ### Program order -/

/-- The opcode map never reports a record as oversized: with its formats it is a tree of conditionals, and no
leaf of it is that error. -/
theorem decodeOp_ne_oversized (c : Command) : decodeOp c ≠ .error .oversizedData := by
  unfold decodeOp formatN formatW formatH formatQ formatB formatA formatD fixedForm
  repeat' refine iteInduction (motive := (· ≠ Except.error _)) (fun _ => ?_) fun _ => ?_
  all_goals nofun

/-- The decoder reports a record as oversized exactly when its `DATA` exceeds R66's bound. -/
theorem decode_oversized_iff {c : Command} : decode c = .error .oversizedData ↔ ¬ DataFits c.data := by
  unfold decode
  split_ifs with hfits
  · exact iff_of_false (decodeOp_ne_oversized c) (not_not_intro hfits)
  · exact iff_of_true rfl hfits

/-- A command record is executed, or is ill-formed and raises `IllegalCommand` (R72). -/
theorem serves_of_dataFits {c : Command} (hfits : DataFits c.data) :
    (∃ i, Serves (.command c) (exec i)) ∨ Serves (.command c) (raise · .illegalCommand) := by
  cases hdecode : decode c with
  | ok i => exact .inl ⟨i, serves_command_ok hdecode⟩
  | error e =>
    have hserves := serves_command_error hdecode
    cases e with
    | oversizedData => exact absurd hfits (decode_oversized_iff.1 hdecode)
    | _ => exact .inr hserves

/-- A pending command is taken, and the step that takes it adds one response (R65). -/
theorem step_answers_command {s : State} {c : Command} {rest : List PortEvent}
    (hport : s.cmdPort = .command c :: rest) (hfits : DataFits c.data) :
    ∃ (t : State) (r : Response), step s = .next t ∧ t.cmdPort = rest ∧ t.rspPort = s.rspPort ++ [r] := by
  rcases serves_of_dataFits hfits with ⟨i, hserves⟩ | hserves
  · obtain ⟨t, r, hexec, hrsp, hcmd, -⟩ := Scope.everyOperationCompletes i { s with cmdPort := rest }
    exact ⟨t, r, (hserves s rest hport).trans hexec, hcmd, hrsp⟩
  · exact ⟨_, _, hserves s rest hport, rfl, rfl⟩

/-- A run begins with a step. -/
theorem run_succ {s t : State} (hstep : step s = .next t) (k : Nat) :
    Sys2Proof.core.run (k + 1) s = Sys2Proof.core.run k t := by
  have hcore : Sys2Proof.core.step s = .next t := hstep
  simp only [Host.Core.run, hcore]

/-- Settles O12, by induction on the pending commands: the first step answers the first command, and the run
of the others is the rest of the run. -/
theorem everyPendingCommandIsAnsweredInOrder : Obligations.EveryPendingCommandIsAnsweredInOrder := by
  intro cs
  induction cs with
  | nil => exact fun s hport _ => ⟨s, [], rfl, hport, by simp, rfl, fun k h => nomatch h⟩
  | cons c cs ih =>
    intro s hport hfits
    obtain ⟨hc, hcs⟩ := List.forall_mem_cons.1 hfits
    obtain ⟨s₁, r, hstep, hport₁, hrsp₁⟩ := step_answers_command hport hc
    obtain ⟨t, rs, hrun, hdone, hrsp, hlen, hk⟩ := ih s₁ hport₁ hcs
    refine ⟨t, r :: rs, (run_succ hstep _).trans hrun, hdone, by simp [hrsp, hrsp₁], by simp [hlen],
      fun k h => ?_⟩
    cases k with
    | zero => exact ⟨s, s₁, rfl, hport, by simp, hstep, hrsp₁⟩
    | succ k =>
      obtain ⟨u, v, hu, hpending, hanswered, hnext, hv⟩ := hk k (Nat.lt_of_succ_lt_succ h)
      exact ⟨u, v, (run_succ hstep k).trans hu, hpending, by simp [hanswered, hrsp₁], hnext, hv⟩

end Sys2Proof.Proofs.MemoryAccess
end

section
/-! PROOFS. The statements of `30_encoding.md`: the rows of the opcode table as the operations that satisfy
them (R70, R72, R73), and the two directions between records and instructions. -/

namespace Sys2Proof.Proofs.CommandEncoding

open Sys2Proof.Machine Sys2Proof.Safety Sys2Proof.Laws

/-! ### Records and instructions -/

variable {c : Command} {i : Instr}

/-- Settles O1: the formats accept the fields the encoder fills in, operation by operation. -/
theorem decodeOfEncodeIsTheInstruction : Obligations.DecodeOfEncodeIsTheInstruction := by
  intro i
  cases i with
  | new n => exact Encoding.new n
  | wrap data => exact Encoding.wrap data
  | discard => exact Encoding.discard
  | emit => exact Encoding.emit
  | status => exact Encoding.status
  | getSrcPort => exact Encoding.getSrcPort
  | getDstPort => exact Encoding.getDstPort
  | getSeq => exact Encoding.getSeq
  | getAck => exact Encoding.getAck
  | getDataOffset => exact Encoding.getDataOffset
  | getFlag => exact Encoding.getFlag
  | getWindow => exact Encoding.getWindow
  | getChecksum => exact Encoding.getChecksum
  | setSrcPort v => exact Encoding.setSrcPort v
  | setDstPort v => exact Encoding.setDstPort v
  | setSeq v => exact Encoding.setSeq v
  | setAck v => exact Encoding.setAck v
  | setDataOffset v => exact Encoding.setDataOffset v
  | setFlag v => exact Encoding.setFlag v
  | setWindow v => exact Encoding.setWindow v
  | setChecksum v => exact Encoding.setChecksum v
  | setPayload data => exact Encoding.setPayload data
  | isCorrectChecksum a0 a1 => exact Encoding.isCorrectChecksum a0 a1
  | csumCompute a0 a1 => exact Encoding.csumCompute a0 a1

/-- The command word determines its three fields (R67). -/
theorem commandWord_inj {op op' : Byte} {a0 a0' a1 a1' : Word} :
    commandWord op a0 a1 = commandWord op' a0' a1' ↔ op = op' ∧ a0 = a0' ∧ a1 = a1' := by
  refine ⟨fun h => ?_, fun ⟨hop, h0, h1⟩ => by rw [hop, h0, h1]⟩
  have hcmd : Command.mk _ [] = Command.mk _ [] := congrArg (Command.mk · []) h
  exact ⟨by simpa using congrArg Command.op hcmd, by simpa using congrArg Command.arg0 hcmd,
    by simpa using congrArg Command.arg1 hcmd⟩

/-- A record is an instruction's encoding exactly when its fields are the instruction's. -/
theorem encode_eq_iff : encode i = c ↔ FieldsAgree i c := by
  constructor
  · rintro rfl
    exact ⟨(op_commandWord ..).symm, (arg0_commandWord ..).symm, (arg1_commandWord ..).symm, rfl⟩
  · rintro ⟨hop, h0, h1, hd⟩
    rw [encode, hop, h0, h1, hd, commandWord_of_fields]

theorem encode_of_decode (h : decode c = .ok i) : encode i = c :=
  encode_eq_iff.2 (decodeOp_fields (decode_ok.1 h).2)

/-- A record is decoded to exactly the instruction it encodes. -/
theorem decode_eq_ok_iff (hfits : DataFits c.data) : decode c = .ok i ↔ encode i = c := by
  refine ⟨encode_of_decode, ?_⟩
  rintro rfl
  exact decodeOfEncodeIsTheInstruction i ((wellFormed_iff i).2 hfits)

/-- Settles O3: the fields of the instruction are those of the record, its `DATA` among them. -/
theorem encodeOfDecodeIsTheCommand : Obligations.EncodeOfDecodeIsTheCommand := by
  intro c i h
  have henc := encode_of_decode h
  refine ⟨henc, (wellFormed_iff i).2 ?_⟩
  show DataFits (encode i).data
  exact henc ▸ (decode_ok.1 h).1

/-- Settles O2: each record of the list is the encoding of its operation. -/
theorem opcodeMapAndOperandFormats : Obligations.OpcodeMapAndOperandFormats := by
  have carries : ∀ i, WellFormed i = true →
      Carries (opcodeOf i) (arg0Of i) (arg1Of i) (dataOf i) i := decodeOfEncodeIsTheInstruction
  refine ⟨fun n a b h q f => ?_, fun data hfits => ?_, ?_⟩
  · exact ⟨carries (.new n) rfl, carries (.setSrcPort h) rfl, carries (.setDstPort h) rfl,
      carries (.setSeq n) rfl, carries (.setAck n) rfl, carries (.setDataOffset q) rfl,
      carries (.setFlag f) rfl, carries (.setWindow h) rfl, carries (.setChecksum h) rfl,
      carries (.isCorrectChecksum a b) rfl, carries (.csumCompute a b) rfl⟩
  · exact ⟨carries (.wrap data) (decide_eq_true hfits), carries (.setPayload data) (decide_eq_true hfits)⟩
  · simp only [List.forall_mem_cons, List.not_mem_nil, false_imp_iff, implies_true, and_true]
    exact ⟨carries .discard rfl, carries .emit rfl, carries .status rfl, carries .getSrcPort rfl,
      carries .getDstPort rfl, carries .getSeq rfl, carries .getAck rfl, carries .getDataOffset rfl,
      carries .getFlag rfl, carries .getWindow rfl, carries .getChecksum rfl⟩

/-- Settles O8: six of the records are encodings, and the two ill-formed ones are read by their format. -/
theorem sampleCommandWordsDecode : Obligations.SampleCommandWordsDecode := by
  have decodes : ∀ {c : Command} {i : Instr}, DataFits c.data → encode i = c → decode c = .ok i :=
    fun hfits => (decode_eq_ok_iff hfits).2
  exact ⟨decodes (by decide) rfl, decodes (by decide) rfl, decodes (by decide) rfl,
    decodes (by decide) rfl, decodes (by decide) rfl, decodes (by decide) rfl, rfl, rfl⟩

/-! ### The rows of the opcode table -/

/-- How many low bits of `ARG0` carry the operand (R70). -/
def arg0Bits (i : Instr) : Nat :=
  match i with
  | .new _ | .setSeq _ | .setAck _ => 32
  | .setSrcPort _ | .setDstPort _ | .setWindow _ | .setChecksum _ => 16
  | .setFlag _ => 8
  | .setDataOffset _ => 4
  | .isCorrectChecksum _ _ | .csumCompute _ _ => 32
  | _ => 0

/-- How many low bits of `ARG1` carry an operand (R70). -/
def arg1Bits (i : Instr) : Nat :=
  match i with
  | .isCorrectChecksum _ _ | .csumCompute _ _ => 32
  | _ => 0

/-- The operations of format D (R70). -/
def takesData (i : Instr) : Bool :=
  match i with
  | .wrap _ | .setPayload _ => true
  | _ => false

/-- The mask of the bits above the low `n` of an operand. -/
def highMask (n : Nat) : Word := BitVec.allOnes 32 <<< n

/-- The row R70 and R73 give an operation, whatever its operands are. -/
def rowOf (i : Instr) : OpcodeRow where
  mnemonic := mnemonicOf i
  pattern := commandWord (opcodeOf i) 0 0
  mask := commandWord 0xFF#8 (highMask (arg0Bits i)) (highMask (arg1Bits i))
  takesData := takesData i

/-- The operation of `i` with its operands read from the places R70 gives them in the record `c`. -/
def readOperands (i : Instr) (c : Command) : Instr :=
  match i with
  | .new _ => .new c.arg0
  | .wrap _ => .wrap c.data
  | .setSrcPort _ => .setSrcPort (c.arg0.extractLsb' 0 16)
  | .setDstPort _ => .setDstPort (c.arg0.extractLsb' 0 16)
  | .setSeq _ => .setSeq c.arg0
  | .setAck _ => .setAck c.arg0
  | .setDataOffset _ => .setDataOffset (c.arg0.extractLsb' 0 4)
  | .setFlag _ => .setFlag (c.arg0.extractLsb' 0 8)
  | .setWindow _ => .setWindow (c.arg0.extractLsb' 0 16)
  | .setChecksum _ => .setChecksum (c.arg0.extractLsb' 0 16)
  | .setPayload _ => .setPayload c.data
  | .isCorrectChecksum _ _ => .isCorrectChecksum c.arg0 c.arg1
  | .csumCompute _ _ => .csumCompute c.arg0 c.arg1
  | _ => i

/-- One instruction of each row, in the order of the table. -/
def representatives : List Instr :=
  [.new 0, .wrap [], .discard, .emit, .status, .getSrcPort, .getDstPort, .getSeq, .getAck,
    .getDataOffset, .getFlag, .getWindow, .getChecksum, .setSrcPort 0, .setDstPort 0, .setSeq 0,
    .setAck 0, .setDataOffset 0, .setFlag 0, .setWindow 0, .setChecksum 0, .setPayload [],
    .isCorrectChecksum 0 0, .csumCompute 0 0]

/-- The opcode table of R72 is the table of the operations' rows. -/
theorem opcodeTable_eq : opcodeTable = representatives.map rowOf := by decide

theorem rowOf_readOperands (i : Instr) (c : Command) : rowOf (readOperands i c) = rowOf i := by
  cases i <;> rfl

theorem readOperands_encode (i : Instr) : readOperands i (encode i) = i := by
  cases i <;> simp [readOperands, encode, arg0Of, arg1Of, dataOf, low_of_setWidth]


/-! ### What a row accepts -/

/-- The low `n` bits of an operand, zero-extended. -/
def lowBits (n : Nat) (v : Word) : Word := (v.extractLsb' 0 n).setWidth 32

theorem lowBits_zero (v : Word) : lowBits 0 v = 0 := by
  simp [lowBits]

theorem lowBits_all (v : Word) : lowBits 32 v = v := by
  simp [lowBits]

theorem getElem_lowBits (n : Nat) (v : Word) {k : Nat} (hk : k < 32) :
    (lowBits n v)[k] = (decide (k < n) && v[k]) := by
  simp [lowBits, hk]

theorem getElem_highMask (n : Nat) {k : Nat} (hk : k < 32) : (highMask n)[k] = decide (n ≤ k) := by
  rw [highMask, BitVec.getElem_shiftLeft, BitVec.getElem_allOnes, Bool.and_true, ← decide_not]
  exact decide_eq_decide.2 Nat.not_lt

/-- The bits above the low `n` are zero exactly when the low `n` are the whole operand. -/
theorem and_highMask_eq_zero_iff (n : Nat) (v : Word) : v &&& highMask n = 0 ↔ lowBits n v = v := by
  simp only [BitVec.eq_of_getElem_eq_iff, BitVec.getElem_and, getElem_highMask, getElem_lowBits]
  refine forall_congr' fun k => forall_congr' fun hk => ?_
  by_cases hkn : k < n
  · simp [hkn]
  · simp [hkn, Nat.le_of_not_lt hkn]

theorem commandWord_and (op m : Byte) (a0 m0 a1 m1 : Word) :
    commandWord op a0 a1 &&& commandWord m m0 m1 = commandWord (op &&& m) (a0 &&& m0) (a1 &&& m1) :=
  BitVec.and_append.trans (congrArg (· ++ (a1 &&& m1)) BitVec.and_append)

/-- A word satisfies a row exactly when it has the row's opcode and only operand bits (R72 (a), (b)). -/
theorem rowOf_accepts_iff (i : Instr) (c : Command) :
    (rowOf i).accepts c.word ↔ c.op = opcodeOf i ∧ lowBits (arg0Bits i) c.arg0 = c.arg0 ∧
      lowBits (arg1Bits i) c.arg1 = c.arg1 := by
  have hop : c.op &&& 0xFF#8 = c.op := BitVec.and_allOnes
  rw [OpcodeRow.accepts, ← commandWord_of_fields c, rowOf, commandWord_and, commandWord_inj, hop,
    and_highMask_eq_zero_iff, and_highMask_eq_zero_iff]

theorem opcodeOf_readOperands (i : Instr) (c : Command) : opcodeOf (readOperands i c) = opcodeOf i := by
  cases i <;> rfl

theorem arg0Of_readOperands (i : Instr) (c : Command) :
    arg0Of (readOperands i c) = lowBits (arg0Bits i) c.arg0 := by
  cases i with
  | new | setSeq | setAck | isCorrectChecksum | csumCompute => exact (lowBits_all _).symm
  | setSrcPort | setDstPort | setDataOffset | setFlag | setWindow | setChecksum => rfl
  | _ => exact (lowBits_zero _).symm

theorem arg1Of_readOperands (i : Instr) (c : Command) :
    arg1Of (readOperands i c) = lowBits (arg1Bits i) c.arg1 := by
  cases i with
  | isCorrectChecksum | csumCompute => exact (lowBits_all _).symm
  | _ => exact (lowBits_zero _).symm

theorem dataOf_readOperands (i : Instr) (c : Command) :
    dataOf (readOperands i c) = c.data ↔ takesData i = true ∨ c.data = [] := by
  cases i with
  | wrap | setPayload => exact iff_of_true rfl (.inl rfl)
  | _ => exact ⟨fun h => .inr h.symm, fun h => (h.resolve_left nofun).symm⟩

/-- A record satisfies the row of an operation exactly when reading that operation's operands from it loses
nothing. -/
theorem encode_readOperands_iff (i : Instr) (c : Command) :
    encode (readOperands i c) = c ↔
      (rowOf i).accepts c.word ∧ ((rowOf i).takesData = true ∨ c.data = []) := by
  rw [encode_eq_iff, FieldsAgree, opcodeOf_readOperands, arg0Of_readOperands, arg1Of_readOperands,
    dataOf_readOperands, rowOf_accepts_iff, and_assoc, and_assoc, @eq_comm _ (opcodeOf i)]
  rfl

/-! ### The table and the decoder -/

theorem exists_rowOf_eq {row : OpcodeRow} (h : row ∈ opcodeTable) : ∃ i, rowOf i = row := by
  rw [opcodeTable_eq] at h
  obtain ⟨i, -, hrow⟩ := List.mem_map.1 h
  exact ⟨i, hrow⟩

theorem rowOf_mem_opcodeTable (i : Instr) : rowOf i ∈ opcodeTable := by
  rw [← rowOf_readOperands i ⟨0, []⟩, opcodeTable_eq]
  refine List.mem_map_of_mem ?_
  cases i <;> simp [readOperands, representatives, Command.arg0, Command.arg1]

theorem mnemonics_nodup : (opcodeTable.map OpcodeRow.mnemonic).Nodup := by decide

theorem patterns_nodup : (opcodeTable.map OpcodeRow.pattern).Nodup := by decide

/-- Settles O5: a word that satisfies a row has the row's opcode, and no two rows have one opcode. -/
theorem opcodeTableRowsAreDisjoint : Obligations.OpcodeTableRowsAreDisjoint := by
  intro w r q hr hq hrw hqw
  refine List.inj_on_of_nodup_map patterns_nodup hr hq ?_
  obtain ⟨i, rfl⟩ := exists_rowOf_eq hr
  obtain ⟨j, rfl⟩ := exists_rowOf_eq hq
  have hopi := ((rowOf_accepts_iff i ⟨w, []⟩).1 hrw).1
  have hopj := ((rowOf_accepts_iff j ⟨w, []⟩).1 hqw).1
  simp only [rowOf, ← hopi, ← hopj]

/-- A record that decodes satisfies the row of the operation it decodes to. -/
theorem rowOf_accepts_of_decode {c : Command} {i : Instr} (h : decode c = .ok i) :
    (rowOf i).accepts c.word ∧ ((rowOf i).takesData = true ∨ c.data = []) := by
  rw [← encode_readOperands_iff, ← encode_of_decode h, readOperands_encode]

/-- Settles O4: a record satisfies a row exactly when it is the encoding of the row's operation with the
operands read from it. -/
theorem decoderAgreesWithTheOpcodeTable : Obligations.DecoderAgreesWithTheOpcodeTable := by
  intro c row hrow hfits
  constructor
  · intro hsat
    obtain ⟨i, rfl⟩ := exists_rowOf_eq hrow
    exact ⟨readOperands i c, (decode_eq_ok_iff hfits).2 ((encode_readOperands_iff i c).2 hsat),
      congrArg OpcodeRow.mnemonic (rowOf_readOperands i c)⟩
  · rintro ⟨i, hdecode, hname⟩
    rw [← List.inj_on_of_nodup_map mnemonics_nodup (rowOf_mem_opcodeTable i) hrow hname]
    exact rowOf_accepts_of_decode hdecode

/-- The well-formed commands of R72 are the records that decode. -/
theorem commandOk_iff {c : Command} (hfits : DataFits c.data) : CommandOk c ↔ ∃ i, decode c = .ok i := by
  constructor
  · rintro ⟨row, hrow, hsat⟩
    obtain ⟨i, hdecode, -⟩ := (decoderAgreesWithTheOpcodeTable c row hrow hfits).1 hsat
    exact ⟨i, hdecode⟩
  · rintro ⟨i, hdecode⟩
    exact ⟨rowOf i, rowOf_mem_opcodeTable i, rowOf_accepts_of_decode hdecode⟩

end Sys2Proof.Proofs.CommandEncoding
end

section
/-! PROOFS. The statements of `30_encoding.md` about the step: which commands are executed and which raise
`IllegalCommand` (R65, R72, R75), and where the model stops (R66). -/

namespace Sys2Proof.Proofs.CommandEncoding

open Sys2Proof.Machine Sys2Proof.Safety Sys2Proof.Laws Sys2Proof.Proofs.SegmentState
  Sys2Proof.Proofs.MemoryAccess

variable {c : Command}

/-- Settles O9: the step is the operation the event serves. -/
theorem stepRunsTheDecodedCommand : Obligations.StepRunsTheDecodedCommand :=
  fun s _ rest _ hport hdecode => serves_command_ok hdecode s rest hport

/-- A command record that decodes to no operation raises `IllegalCommand`. -/
theorem serves_illegal (hfits : DataFits c.data) (hill : ¬ ∃ i, decode c = .ok i) :
    Serves (.command c) (raise · .illegalCommand) := by
  cases hdecode : decode c with
  | ok i => exact absurd ⟨i, hdecode⟩ hill
  | error e =>
    have hserves := serves_command_error hdecode
    cases e with
    | oversizedData => exact absurd hfits (decode_oversized_iff.1 hdecode)
    | unassignedOpcode | unusedOperandBits | unexpectedData => exact hserves

/-- Settles O6: the well-formed commands are those that decode. -/
theorem illFormedCommandRaisesIllegalCommand : Obligations.IllFormedCommandRaisesIllegalCommand := by
  intro s c rest hport hfits
  rw [commandOk_iff hfits]
  refine ⟨fun hill => serves_illegal hfits hill s rest hport, ?_⟩
  rintro ⟨i, hdecode⟩
  exact ⟨i, hdecode, stepRunsTheDecodedCommand s c rest i hport hdecode⟩

theorem not_unassigned_opcodeOf (i : Instr) : ¬ Unassigned (opcodeOf i).toNat := by
  cases i <;> simp [opcodeOf]

/-- A record with an unassigned opcode decodes to no operation. -/
theorem not_decodes_of_unassigned (h : Unassigned c.op.toNat) : ¬ ∃ i, decode c = .ok i := by
  rintro ⟨i, hdecode⟩
  obtain ⟨hop, -⟩ := encode_eq_iff.1 (encode_of_decode hdecode)
  exact not_unassigned_opcodeOf i (hop ▸ h)

/-- Settles O7: no operation has an unassigned opcode, and every command record is answered. -/
theorem unassignedOpcodeRaisesIllegalCommand : Obligations.UnassignedOpcodeRaisesIllegalCommand := by
  refine ⟨rfl, fun s c rest hport hfits => ⟨fun hun => ?_, ?_⟩⟩
  · exact serves_illegal hfits (not_decodes_of_unassigned hun) s rest hport
  · obtain ⟨t, -, hstep, -⟩ := step_answers_command hport hfits
    exact ⟨t, hstep⟩

/-- Settles O10: the step that takes a command adds one response. -/
theorem everyCommandIsAnsweredByExactlyOneResponse :
    Obligations.EveryCommandIsAnsweredByExactlyOneResponse :=
  fun _ _ _ hport hfits => step_answers_command hport hfits

/-- Settles O13: reset and the idle step answer a next state, and so does every command R66 allows. -/
theorem onlyAnOversizedRecordStopsTheModel : Obligations.OnlyAnOversizedRecordStopsTheModel := by
  refine fun s => ⟨fun c rest hport hbig => ?_, ?_⟩
  · exact serves_command_error (decode_oversized_iff.2 hbig) s rest hport
  cases hport : s.cmdPort with
  | nil => exact .inl ⟨s, step_idle hport⟩
  | cons e rest =>
    cases e with
    | reset => exact .inl ⟨_, serves_reset s rest hport⟩
    | resetDuring c => exact .inl ⟨_, serves_resetDuring c s rest hport⟩
    | command c =>
      by_cases hfits : DataFits c.data
      · obtain ⟨t, -, hstep, -⟩ := step_answers_command hport hfits
        exact .inl ⟨t, hstep⟩
      · exact .inr ⟨c, rest, rfl, hfits⟩

end Sys2Proof.Proofs.CommandEncoding
end

section
/-! PROOFS. The shape of the response of every operation (R68, R140). -/

namespace Sys2Proof.Proofs.CommandEncoding

open Sys2Proof.Machine Sys2Proof.Safety Sys2Proof.Laws Sys2Proof.Proofs.SegmentState

/-- What R68 says of a response `r` to the operation `i`: `DOUT` is for EMIT alone, and `RES` is for the
operations that return a value. -/
def HasShape (i : Instr) (r : Response) : Prop :=
  ResponseOk r ∧ (i ≠ .emit → r.dout = []) ∧
    ((changesSegment i = true ∨ isSetter i = true ∨ i = .emit) → r.res = 0#32)

theorem hasShape_errResponse (i : Instr) (e : Error) : HasShape i (errResponse e.code) :=
  ⟨responseOk_errResponse e, fun _ => rfl, fun _ => rfl⟩

theorem hasShape_done (i : Instr) : HasShape i (okResponse 0#32 []) :=
  ⟨responseOk_okResponse _ _, fun _ => rfl, fun _ => rfl⟩

theorem hasShape_bytes (dout : List Byte) : HasShape .emit (okResponse 0#32 dout) :=
  ⟨responseOk_okResponse _ _, fun h => absurd rfl h, fun _ => rfl⟩

theorem hasShape_value {i : Instr} (hread : isReader i = true) (hemit : i ≠ .emit) (res : Word) :
    HasShape i (okResponse res []) := by
  obtain ⟨hchange, hset⟩ : changesSegment i = false ∧ isSetter i = false := by
    simpa [isReader] using hread
  exact ⟨responseOk_okResponse _ _, fun _ => rfl, by simp [hchange, hset, hemit]⟩

/-- The outcome `o` of `i` run in `s` adds one response to those of `s`, of the shape R68 gives it. -/
def AnswersInShape (i : Instr) (s : State) (o : Host.Outcome State Fault Refusal) : Prop :=
  ∃ (u : State) (r : Response), o = .next (u.respond r) ∧ u.rspPort = s.rspPort ∧ HasShape i r

variable {i : Instr} {s : State}

theorem answersInShape_raise (e : Error) : AnswersInShape i s (raise s e) :=
  ⟨s, _, raise_eq s e, rfl, hasShape_errResponse i e⟩

theorem answersInShape_done {u : State} (hu : u.rspPort = s.rspPort) :
    AnswersInShape i s (returnDone u) :=
  ⟨u, _, returnDone_eq u, hu, hasShape_done i⟩

theorem answersInShape_value (hread : isReader i = true) (hemit : i ≠ .emit) (res : Word) :
    AnswersInShape i s (returnOk s res []) :=
  ⟨s, _, returnOk_eq s res [], rfl, hasShape_value hread hemit res⟩

theorem answersInShape_withSegment {b : Host.Outcome State Fault Refusal} (h : AnswersInShape i s b) :
    AnswersInShape i s (withSegment s b) := by
  unfold withSegment
  split
  · exact h
  · exact answersInShape_raise _

/-- A reader other than EMIT answers a value or raises; EMIT answers bytes. -/
theorem answersInShape_reader (hread : isReader i = true) : AnswersInShape i s (exec i s) := by
  cases i with
  | emit =>
    exact answersInShape_withSegment ⟨s, _, returnOk_eq s 0#32 s.segment, rfl, hasShape_bytes _⟩
  | status => exact answersInShape_value rfl (by nofun) _
  | getSrcPort | getDstPort | getSeq | getAck | getDataOffset | getFlag | getWindow | getChecksum
  | isCorrectChecksum =>
    exact answersInShape_withSegment (answersInShape_value rfl (by nofun) _)
  | csumCompute a0 a1 =>
    refine answersInShape_withSegment ?_
    split
    · exact answersInShape_value rfl (by nofun) _
    · exact answersInShape_raise _
  | _ => cases hread

/-- Constructors and setters raise or end without a result; the readers are the case before. -/
theorem answersInShape_exec (i : Instr) (s : State) : AnswersInShape i s (exec i s) := by
  by_cases hchange : changesSegment i = true
  · rcases exec_changesSegment hchange s with ⟨e, hexec⟩ | hexec | ⟨p, m, hexec, -⟩ <;> rw [hexec]
    · exact answersInShape_raise e
    · exact answersInShape_done rfl
    · exact answersInShape_done rfl
  by_cases hset : isSetter i = true
  · rcases exec_setter hset s with ⟨e, hexec, -⟩ | ⟨-, hexec, -⟩ <;> rw [hexec]
    · exact answersInShape_raise e
    · exact answersInShape_done rfl
  · exact answersInShape_reader (isReader_of_not hchange hset)

/-- Settles O43: the response added is the one the operation ended in. -/
theorem responsesHaveTheShapeOfTheRecord : Obligations.ResponsesHaveTheShapeOfTheRecord := by
  intro i s t r hexec hrsp
  obtain ⟨u, q, hanswer, hu, hshape⟩ := answersInShape_exec i s
  cases hanswer.symm.trans hexec
  rw [respond_rspPort, hu] at hrsp
  exact respond_inj hrsp ▸ hshape

end Sys2Proof.Proofs.CommandEncoding
end

section
/-! PROOFS. The statements of `40_construction.md`: what NEW, WRAP, DISCARD, EMIT and STATUS answer, and the
segment each of them leaves (R80 to R85). -/

namespace Sys2Proof.Proofs.Construction

open Sys2Proof.Machine Sys2Proof.Safety Sys2Proof.Laws Sys2Proof.Proofs.SegmentState

/-! ### The segment of NEW -/

/-- A payload length within `PAYLOAD_MAX` fits `PLEN`. -/
theorem toNat_low_of_fits {n : Word} {s : State} (h : n.toNat ≤ s.cfg.payloadMax.val) :
    (n.extractLsb' 0 16).toNat = n.toNat := by
  have hmax := s.cfg.payloadMax.isLt
  rw [BitVec.extractLsb'_toNat, Nat.shiftRight_zero, Nat.mod_eq_of_lt (by omega)]

section ZeroFilled

variable {t : State} (hbuf : t.buf = Memory.zeroed)

include hbuf

theorem read_of_zeroed (a : Nat) : Memory.read t.buf a = 0#8 := hbuf ▸ read_nil a

theorem memRead2_of_zeroed (o : Nat) : t.memRead2 o = 0#16 := by
  rw [State.memRead2, read_of_zeroed hbuf, read_of_zeroed hbuf]
  rfl

theorem memRead4_of_zeroed (o : Nat) : t.memRead4 o = 0#32 := by
  rw [memRead4_eq_halves, memRead2_of_zeroed hbuf, memRead2_of_zeroed hbuf]
  rfl

/-- Every getter reads 0 from a zero-filled segment: its field is made of zero bytes. -/
theorem getter_of_zeroed {g : Instr} (hg : g ∈ getters) (hvalid : t.valid = true) :
    exec g t = .next (t.respond (okResponse 0#32 [])) := by
  have answers : ∀ {v : Word}, v = 0#32 →
      withSegment t (returnOk t v []) = .next (t.respond (okResponse 0#32 [])) :=
    fun hread => hread ▸ withSegment_valid hvalid _
  cases g with
  | getSrcPort | getDstPort | getWindow | getChecksum =>
    exact answers (congrArg zext32 (memRead2_of_zeroed hbuf _))
  | getSeq | getAck => exact answers (memRead4_of_zeroed hbuf _)
  | getDataOffset => exact answers (congrArg (zext32 <| highNibble ·) (read_of_zeroed hbuf 12))
  | getFlag => exact answers (congrArg zext32 (read_of_zeroed hbuf 13))
  | _ => simp [getters] at hg

end ZeroFilled

theorem readBytes_zeroed (a n : Nat) : Memory.readBytes Memory.zeroed a n = List.replicate n 0#8 := by
  simp [Memory.readBytes, Memory.zeroed]

/-- Settles O19: the segment NEW leaves lists no byte, so every byte and every field of it is zero. -/
theorem newCreatesAZeroFilledSegment : Obligations.NewCreatesAZeroFilledSegment := by
  refine fun n s =>
    ⟨carries_of_encoding (.new n) (Encoding.new n) rfl, exec_new_exceeds, fun hfits => ?_⟩
  exact ⟨_, exec_new_fits hfits, rfl, toNat_low_of_fits hfits,
    fun a _ => congrArg BitVec.toNat (read_of_zeroed rfl a), rfl, rfl, rfl,
    fun _ hg => getter_of_zeroed rfl hg rfl⟩

/-! ### The segment of WRAP -/

/-- The payload length of wrapped bytes within the capacity fits `PLEN`. -/
theorem toNat_plen_of_fits {data : List Byte} {s : State} (h : data.length ≤ 20 + s.cfg.payloadMax.val) :
    (BitVec.ofNat 16 (data.length - 20)).toNat = data.length - 20 := by
  have hmax := s.cfg.payloadMax.isLt
  rw [BitVec.toNat_ofNat, Nat.mod_eq_of_lt (by omega)]

/-- Bytes written from index 0 are read back, index by index. -/
theorem read_writeBytes_zero (m : Memory) {data : List Byte} {a : Nat} (h : a < data.length) :
    Memory.read (Memory.writeBytes m 0 data) a = data[a] := by
  rw [read_writeBytes, if_pos ⟨a.zero_le, by omega⟩, Nat.sub_zero, List.getD_eq_getElem _ _ h]

theorem readBytes_writeBytes_zero (m : Memory) (data : List Byte) :
    Memory.readBytes (Memory.writeBytes m 0 data) 0 data.length = data := by
  refine List.ext_getElem (length_readBytes ..) fun a _ ha => ?_
  rw [getElem_readBytes, Nat.zero_add, read_writeBytes_zero m ha]

/-- Settles O20: the bytes are written from index 0 into a fresh segment of their length. -/
theorem wrapTakesTheBytesAndChecksOnlyTheLength :
    Obligations.WrapTakesTheBytesAndChecksOnlyTheLength := by
  refine fun data s => ⟨fun hdata => ?_, exec_wrap_short, fun hbig => ?_, fun hmin hmax => ?_⟩
  · exact carries_of_encoding (.wrap data) (Encoding.wrap data) (decide_eq_true hdata)
  · exact exec_wrap_exceeds (by omega) hbig
  · exact ⟨_, exec_wrap_fits hmin hmax, rfl, toNat_plen_of_fits hmax,
      fun a ha => read_writeBytes_zero [] ha, rfl, rfl, rfl⟩

/-! ### STATUS -/

theorem exec_status (s : State) :
    exec .status s = .next (s.respond (okResponse (statusWord s.valid s.plen) [])) := rfl

/-- `VALID` is bit 16 of the status word, above `PLEN`. -/
theorem statusWord_eq (valid : Bool) (plen : Half) :
    statusWord valid plen = BitVec.ofNat 32 ((if valid then 65536 else 0) + plen.toNat) := by
  apply BitVec.eq_of_toNat_eq
  have hvalid : (BitVec.ofBool valid).toNat * 2 ^ 16 = if valid then 65536 else 0 := by
    cases valid <;> rfl
  rw [statusWord, zext32, BitVec.toNat_setWidth, BitVec.toNat_ofNat, toNat_concat, hvalid]

/-- STATUS answers 0 where no segment is held and `PLEN = 0`. -/
theorem exec_status_of_no_segment {s : State} (hvalid : s.valid = false) (hplen : s.plen = 0#16) :
    exec .status s = .next (s.respond (okResponse 0#32 [])) := by
  rw [exec_status, hvalid, hplen]
  rfl

/-- Settles O23: with the invariant, `PLEN = 0` where no segment is held. -/
theorem statusReportsValidAndPlen : Obligations.StatusReportsValidAndPlen := by
  refine ⟨carries_of_encoding .status Encoding.status rfl, fun s => ⟨?_, fun hinv hvalid => ?_⟩⟩
  · rw [exec_status, statusWord_eq]
  · exact exec_status_of_no_segment hvalid (hinv.empty hvalid)

/-! ### DISCARD -/

theorem exec_discard (s : State) :
    exec .discard s = .next (s.holdNone.respond (okResponse 0#32 [])) := rfl

/-- Releasing no segment changes nothing a host can observe. -/
theorem sameToHost_holdNone_of_no_segment {s : State} (hvalid : s.valid = false) (hplen : s.plen = 0#16) :
    SameToHost s s.holdNone :=
  ⟨rfl, hvalid, hplen, rfl, rfl, fun h => absurd h (by simp [hvalid])⟩

/-- Settles O21: DISCARD ends in a state that holds no segment, with `PLEN = 0`. -/
theorem discardReleasesTheSegment : Obligations.DiscardReleasesTheSegment := by
  refine ⟨carries_of_encoding .discard Encoding.discard rfl, fun s => ?_⟩
  exact ⟨_, exec_discard s, rfl, rfl, rfl, rfl, rfl, exec_status_of_no_segment rfl rfl,
    fun _ hneeds => exec_needsSegment_invalid hneeds rfl,
    fun hvalid hplen => sameToHost_respond (sameToHost_holdNone_of_no_segment hvalid hplen) _⟩

/-! ### EMIT -/

theorem exec_emit_valid {s : State} (h : s.valid = true) :
    exec .emit s = .next (s.respond (okResponse 0#32 s.segment)) :=
  withSegment_valid h _

theorem length_segment (s : State) : s.segment.length = 20 + s.plen.toNat :=
  length_readBytes ..

theorem getElem_segment (s : State) {a : Nat} (h : a < s.segment.length) :
    s.segment[a] = Memory.read s.buf a :=
  (getElem_readBytes _ _ _ _ h).trans (by rw [Nat.zero_add])

/-- The segment NEW leaves is `20 + n` zero bytes. -/
theorem segment_of_new {n : Word} {s : State} (h : n.toNat ≤ s.cfg.payloadMax.val) :
    (s.holdSegment (n.extractLsb' 0 16) Memory.zeroed).segment = List.replicate (20 + n.toNat) 0#8 := by
  rw [State.segment, State.len, holdSegment_buf, holdSegment_plen, toNat_low_of_fits h, readBytes_zeroed]

/-- The segment WRAP leaves is the bytes wrapped. -/
theorem segment_of_wrap {data : List Byte} {s : State} (hmin : 20 ≤ data.length)
    (hmax : data.length ≤ 20 + s.cfg.payloadMax.val) :
    (s.holdSegment (BitVec.ofNat 16 (data.length - 20)) (Memory.writeBytes [] 0 data)).segment = data := by
  rw [State.segment, State.len, holdSegment_buf, holdSegment_plen, toNat_plen_of_fits hmax,
    Nat.add_sub_cancel' hmin, readBytes_writeBytes_zero]

/-- EMIT after an operation that takes the segment `p`, `m` answers its bytes. -/
theorem emit_after_hold {i : Instr} {s : State} {p : Half} {m : Memory} {bytes : List Byte}
    (hexec : exec i s = returnDone (s.holdSegment p m)) (hbytes : (s.holdSegment p m).segment = bytes) :
    ∃ t : State, exec i s = .next t ∧ exec .emit t = .next (t.respond (okResponse 0#32 bytes)) := by
  refine ⟨_, hexec, ?_⟩
  rw [exec_emit_valid rfl, respond_segment, hbytes]

/-- Settles O22: EMIT answers the segment, and the segments WRAP and NEW leave are known. -/
theorem emitReadsTheWholeBuffer : Obligations.EmitReadsTheWholeBuffer := by
  refine ⟨carries_of_encoding .emit Encoding.emit rfl, fun s =>
    ⟨fun hvalid => ?_, fun hvalid => ?_, ?_, ?_⟩⟩
  · exact ⟨_, exec_emit_valid hvalid, length_segment s, fun _ ha => getElem_segment s ha⟩
  · exact exec_needsSegment_invalid rfl hvalid
  · exact fun _ hmin hmax => emit_after_hold (exec_wrap_fits hmin hmax) (segment_of_wrap hmin hmax)
  · exact fun _ hfits => emit_after_hold (exec_new_fits hfits) (segment_of_new hfits)

end Sys2Proof.Proofs.Construction
end

section
/-! PROOFS. The statements of `41_accessors.md`: each getter answers the stored field as a number (R90 to
R98). -/

namespace Sys2Proof.Proofs.Accessors

open Sys2Proof.Machine Sys2Proof.Safety Sys2Proof.Laws

/-! ### The value of a field -/

/-- A result narrower than `RES` keeps its value (R6, R68). -/
theorem zext32_eq_ofNat {n k : Nat} {v : BitVec n} (h : v.toNat = k) : zext32 v = BitVec.ofNat 32 k := by
  rw [← h, BitVec.ofNat_toNat, zext32]

theorem zext32_memRead2 (s : State) (o : Nat) :
    zext32 (s.memRead2 o) = BitVec.ofNat 32 (byteAt s o * 256 + byteAt s (o + 1)) :=
  zext32_eq_ofNat (toNat_memRead2 s o)

theorem memRead4_eq_ofNat (s : State) (o : Nat) :
    s.memRead4 o = BitVec.ofNat 32
      (byteAt s o * 2 ^ 24 + byteAt s (o + 1) * 2 ^ 16 + byteAt s (o + 2) * 2 ^ 8 + byteAt s (o + 3)) := by
  rw [← toNat_memRead4, BitVec.ofNat_toNat, BitVec.setWidth_eq]

theorem toNat_highNibble (b : Byte) : (highNibble b).toNat = b.toNat / 16 := by
  have hb := b.isLt
  rw [highNibble, BitVec.extractLsb'_toNat, Nat.shiftRight_eq_div_pow, Nat.mod_eq_of_lt (by omega)]

/-! ### The shape of a getter -/

/-- A getter that answers `answer` with a segment held returns the field whose number `answer` is. -/
theorem getterReturns_of_answer {op : Byte} {get : Instr} {value : State → Nat} {answer : State → Word}
    (hcarries : Carries op 0#32 0#32 [] get)
    (hexec : ∀ s, exec get s = withSegment s (returnOk s (answer s) []))
    (hanswer : ∀ s, answer s = BitVec.ofNat 32 (value s)) : GetterReturns op get value := by
  refine ⟨hcarries, fun s => ⟨fun hvalid => ?_, fun hvalid => ?_⟩⟩
  · rw [hexec, withSegment_valid hvalid, returnOk_eq, hanswer]
  · rw [hexec, withSegment_invalid hvalid]

/-- Settles O26: the four 16-bit getters differ in the offset of their field alone. -/
theorem sixteenBitGettersReturnTheirField : Obligations.SixteenBitGettersReturnTheirField := by
  refine ⟨?_, ?_, ?_, ?_⟩
  · exact getterReturns_of_answer (carries_of_encoding .getSrcPort Encoding.getSrcPort rfl)
      (fun _ => rfl) (zext32_memRead2 · 0)
  · exact getterReturns_of_answer (carries_of_encoding .getDstPort Encoding.getDstPort rfl)
      (fun _ => rfl) (zext32_memRead2 · 2)
  · exact getterReturns_of_answer (carries_of_encoding .getWindow Encoding.getWindow rfl)
      (fun _ => rfl) (zext32_memRead2 · 14)
  · exact getterReturns_of_answer (carries_of_encoding .getChecksum Encoding.getChecksum rfl)
      (fun _ => rfl) (zext32_memRead2 · 16)

/-- Settles O27: a 32-bit field fills `RES`. -/
theorem thirtyTwoBitGettersReturnTheirField : Obligations.ThirtyTwoBitGettersReturnTheirField := by
  refine ⟨?_, ?_⟩
  · exact getterReturns_of_answer (carries_of_encoding .getSeq Encoding.getSeq rfl)
      (fun _ => rfl) (memRead4_eq_ofNat · 4)
  · exact getterReturns_of_answer (carries_of_encoding .getAck Encoding.getAck rfl)
      (fun _ => rfl) (memRead4_eq_ofNat · 8)

/-- Settles O28: the high nibble drops the reserved bits, and the flags are the whole byte. -/
theorem nibbleAndByteGettersReturnTheirField : Obligations.NibbleAndByteGettersReturnTheirField := by
  refine ⟨?_, ?_⟩
  · exact getterReturns_of_answer (carries_of_encoding .getDataOffset Encoding.getDataOffset rfl)
      (fun _ => rfl) (fun s => zext32_eq_ofNat (toNat_highNibble (s.memRead1 12)))
  · exact getterReturns_of_answer (carries_of_encoding .getFlag Encoding.getFlag rfl)
      (fun _ => rfl) (fun s => zext32_eq_ofNat (v := s.memRead1 13) rfl)

end Sys2Proof.Proofs.Accessors
end

section
/-! PROOFS. The statements of `42_mutators.md`: what each setter stores, what it leaves alone, and what its
getter answers afterwards (R100 to R109). -/

namespace Sys2Proof.Proofs.Mutators

open Sys2Proof.Machine Sys2Proof.Safety Sys2Proof.Laws

/-! ### The state after a store -/

/-- What a setter that writes the bytes `bs` from `o` up leaves: the bytes written, and its response (R100). -/
def afterStore (s : State) (o : Nat) (bs : List Byte) : State :=
  (s.memWrite o bs).respond (okResponse 0#32 [])

section Store

variable (s : State) (o : Nat) (bs : List Byte)

theorem returnDone_memWrite : returnDone (s.memWrite o bs) = .next (afterStore s o bs) := rfl

@[simp] theorem afterStore_valid : (afterStore s o bs).valid = s.valid := rfl
@[simp] theorem afterStore_plen : (afterStore s o bs).plen = s.plen := rfl

theorem onlyBufWritten_afterStore : OnlyBufWritten s (afterStore s o bs) := ⟨rfl, rfl, rfl, rfl, rfl⟩

theorem sameBytes_afterStore_again :
    SameBytes (afterStore s o bs) (afterStore (afterStore s o bs) o bs) :=
  MemoryAccess.sameBytes_memWrite_again s o bs

end Store

/-! ### The shape of a setter -/

/-- A setter that stores `bytes v` at `o`, the `k` bytes of its operand most significant first, and whose
getter then answers `v`, stores its operand. -/
theorem setterStores_of_bytes {n : Nat} {op : Byte} {set : BitVec n → Instr} {get : Instr} {o k : Nat}
    {bytes : BitVec n → List Byte} {answer : State → Word}
    (hcarries : ∀ v, Carries op (v.setWidth 32) 0#32 [] (set v))
    (hset : ∀ v s, exec (set v) s = withSegment s (returnDone (s.memWrite o (bytes v))))
    (hget : ∀ s, exec get s = withSegment s (returnOk s (answer s) []))
    (hlength : ∀ v, (bytes v).length = k)
    (hbytes : ∀ v j, j < k → ((bytes v).getD j 0#8).toNat = v.toNat / 256 ^ (k - 1 - j) % 256)
    (hanswer : ∀ s v, answer (afterStore s o (bytes v)) = v.setWidth 32) :
    SetterStores op set get o k := by
  intro s v
  have stores : ∀ {t : State}, t.valid = true → exec (set v) t = .next (afterStore t o (bytes v)) :=
    fun ht => by rw [hset, withSegment_valid ht, returnDone_memWrite]
  refine ⟨hcarries v, fun hvalid => ?_, fun hvalid => by rw [hset, withSegment_invalid hvalid]⟩
  have hstill : (afterStore s o (bytes v)).valid = true := by simpa using hvalid
  refine ⟨_, stores hvalid, onlyBufWritten_afterStore s o _, fun j hj => ?_, fun a ha => ?_, ?_,
    _, stores hstill, onlyBufWritten_afterStore _ o _, sameBytes_afterStore_again s o _⟩
  · exact (byteAt_memWrite_inside s o ((hlength v).symm ▸ hj)).trans (hbytes v j hj)
  · exact read_memWrite_outside s ((hlength v).symm ▸ ha)
  · rw [hget, withSegment_valid hstill, returnOk_eq, hanswer]

/-- A 16-bit setter and its getter at the same offset. -/
theorem setterStores_of_memWrite2 {op : Byte} {set : Half → Instr} {get : Instr} {o : Nat}
    (hcarries : ∀ v, Carries op (v.setWidth 32) 0#32 [] (set v))
    (hset : ∀ v s, exec (set v) s = withSegment s (returnDone (s.memWrite2 o v)))
    (hget : ∀ s, exec get s = withSegment s (returnOk s (zext32 (s.memRead2 o)) [])) :
    SetterStores op set get o 2 :=
  setterStores_of_bytes hcarries hset hget length_bytesOfHalf getD_bytesOfHalf
    fun s v => congrArg zext32 (memRead2_memWrite2 s o v)

/-- A 32-bit setter and its getter at the same offset. -/
theorem setterStores_of_memWrite4 {op : Byte} {set : Word → Instr} {get : Instr} {o : Nat}
    (hcarries : ∀ v, Carries op (v.setWidth 32) 0#32 [] (set v))
    (hset : ∀ v s, exec (set v) s = withSegment s (returnDone (s.memWrite4 o v)))
    (hget : ∀ s, exec get s = withSegment s (returnOk s (s.memRead4 o) [])) :
    SetterStores op set get o 4 :=
  setterStores_of_bytes hcarries hset hget length_bytesOfWord getD_bytesOfWord
    fun s v => (memRead4_memWrite4 s o v).trans (BitVec.setWidth_eq v).symm

/-- Settles O31: the four 16-bit setters differ in the offset of their field alone. -/
theorem sixteenBitSettersStoreTheirOperand : Obligations.SixteenBitSettersStoreTheirOperand := by
  refine ⟨?_, ?_, ?_, ?_⟩
  · exact setterStores_of_memWrite2
      (fun v => carries_of_encoding (.setSrcPort v) (Encoding.setSrcPort v) rfl)
      (fun _ _ => rfl) (fun _ => rfl)
  · exact setterStores_of_memWrite2
      (fun v => carries_of_encoding (.setDstPort v) (Encoding.setDstPort v) rfl)
      (fun _ _ => rfl) (fun _ => rfl)
  · exact setterStores_of_memWrite2
      (fun v => carries_of_encoding (.setWindow v) (Encoding.setWindow v) rfl)
      (fun _ _ => rfl) (fun _ => rfl)
  · exact setterStores_of_memWrite2
      (fun v => carries_of_encoding (.setChecksum v) (Encoding.setChecksum v) rfl)
      (fun _ _ => rfl) (fun _ => rfl)

/-- What `ARG0` of SET_SEQ and SET_ACK carries is the operand itself, which fills it (R70). -/
theorem carries_setWidth_self {op : Byte} {v : Word} {i : Instr} (h : Carries op v 0#32 [] i) :
    Carries op (v.setWidth 32) 0#32 [] i :=
  (BitVec.setWidth_eq v).symm ▸ h

/-- Settles O32: the two 32-bit setters differ in the offset of their field alone. -/
theorem thirtyTwoBitSettersStoreTheirOperand : Obligations.ThirtyTwoBitSettersStoreTheirOperand := by
  refine ⟨?_, ?_⟩
  · exact setterStores_of_memWrite4
      (fun v => carries_setWidth_self (carries_of_encoding (.setSeq v) (Encoding.setSeq v) rfl))
      (fun _ _ => rfl) (fun _ => rfl)
  · exact setterStores_of_memWrite4
      (fun v => carries_setWidth_self (carries_of_encoding (.setAck v) (Encoding.setAck v) rfl))
      (fun _ _ => rfl) (fun _ => rfl)

/-- Settles O33: the one byte stored is the operand, whole. -/
theorem setFlagReplacesTheFlagsByte : Obligations.SetFlagReplacesTheFlagsByte := by
  refine setterStores_of_bytes (bytes := fun v => [v]) (answer := fun s => zext32 (s.memRead1 13))
    (fun v => carries_of_encoding (.setFlag v) (Encoding.setFlag v) rfl) (fun _ _ => rfl) (fun _ => rfl)
    (fun _ => rfl) (fun v j hj => ?_) (fun s v => ?_)
  · obtain rfl : j = 0 := by omega
    simpa using (Nat.mod_eq_of_lt v.isLt).symm
  · exact congrArg zext32 (Scope.read_memWrite_singleton_same s 13 v)

/-! ### The data offset -/

/-- A value ORed into the high nibble is ORed to the data offset (R105). -/
theorem highNibble_or_toHighNibble (b : Byte) (v : BitVec 4) :
    highNibble (b ||| toHighNibble v) = highNibble b ||| v := by
  ext i hi
  simp [highNibble, toHighNibble, show 4 + i < 8 by omega, BitVec.getLsbD_eq_getElem hi]

/-- SET_DATA_OFFSET, ended in a success: byte 12 with the operand ORed in. -/
def afterSetDataOffset (s : State) (a : BitVec 4) : State :=
  afterStore s 12 [s.memRead1 12 ||| toHighNibble a]

@[simp] theorem afterSetDataOffset_valid (s : State) (a : BitVec 4) :
    (afterSetDataOffset s a).valid = s.valid := rfl

theorem exec_setDataOffset_valid {s : State} (hvalid : s.valid = true) (a : BitVec 4) :
    exec (.setDataOffset a) s = .next (afterSetDataOffset s a) :=
  withSegment_valid hvalid _

theorem read_afterSetDataOffset (s : State) (a : BitVec 4) :
    Memory.read (afterSetDataOffset s a).buf 12 = Memory.read s.buf 12 ||| toHighNibble a :=
  Scope.read_memWrite_singleton_same s 12 _

/-- The data offset accumulates (R105). -/
theorem dataOffset_afterSetDataOffset (s : State) (a : BitVec 4) :
    byteAt (afterSetDataOffset s a) 12 / 16 = byteAt s 12 / 16 ||| a.toNat := by
  rw [byteAt, read_afterSetDataOffset, ← Accessors.toNat_highNibble, highNibble_or_toHighNibble,
    BitVec.toNat_or, Accessors.toNat_highNibble, byteAt]

theorem exec_getDataOffset_valid {s : State} (hvalid : s.valid = true) :
    exec .getDataOffset s = .next (s.respond (okResponse (BitVec.ofNat 32 (byteAt s 12 / 16)) [])) :=
  (Accessors.nibbleAndByteGettersReturnTheirField.1.2 s).1 hvalid

/-- GET_DATA_OFFSET answers a value exactly when it is the data offset. -/
theorem exec_getDataOffset_eq_iff {s : State} (hvalid : s.valid = true) (a : BitVec 4) :
    exec .getDataOffset s = .next (s.respond (okResponse (a.setWidth 32) [])) ↔
      byteAt s 12 / 16 = a.toNat := by
  have hbyte : byteAt s 12 < 256 := (Memory.read s.buf 12).isLt
  have ha := a.isLt
  rw [exec_getDataOffset_valid hvalid, next_respond_inj]
  simp only [okResponse, Response.mk.injEq, true_and, and_true, ← BitVec.toNat_inj,
    BitVec.toNat_ofNat, BitVec.toNat_setWidth]
  omega

/-- ORing bits into a number clears none of its own. -/
theorem or_and_self_left (x y : Nat) : (x ||| y) &&& x = x := by
  refine Nat.eq_of_testBit_eq fun i => ?_
  rw [Nat.testBit_and, Nat.testBit_or, Bool.and_comm]
  cases x.testBit i <;> rfl

/-- A setter clears no bit of the data offset: SET_DATA_OFFSET ORs into it, and no other setter writes its
byte. -/
theorem setter_keeps_dataOffset_bits {i : Instr} (hset : isSetter i = true) (s : State) :
    byteAt (afterStore s (storeOf i s).1 (storeOf i s).2) 12 / 16 &&& byteAt s 12 / 16 =
      byteAt s 12 / 16 := by
  by_cases hown : getterOf i = some .getDataOffset
  · obtain ⟨v, rfl⟩ := SegmentState.getterOf_eq_getDataOffset hown
    show byteAt (afterSetDataOffset s v) 12 / 16 &&& _ = _
    rw [dataOffset_afterSetDataOffset]
    exact or_and_self_left ..
  · have hbyte : byteAt (afterStore s (storeOf i s).1 (storeOf i s).2) 12 = byteAt s 12 :=
      congrArg BitVec.toNat (read_memWrite_outside s
        (SegmentState.outside_store_of_inField hset (g := .getDataOffset) (by decide) hown s (by decide)))
    rw [hbyte, Nat.and_self]

/-- Settles O34: every clause about one run reads byte 12 after the store, a second run applies the same
lemma to the state the first one left, and no other setter writes that byte. -/
theorem setDataOffsetAccumulates : Obligations.SetDataOffsetAccumulates := by
  refine ⟨fun s a => ⟨carries_of_encoding (.setDataOffset a) (Encoding.setDataOffset a) rfl,
    fun hvalid => ?_, fun hvalid => withSegment_invalid hvalid _⟩, fun i s t hexec hkeep => ?_⟩
  · have hoffset := dataOffset_afterSetDataOffset s a
    have hstill : (afterSetDataOffset s a).valid = true := by simpa using hvalid
    refine ⟨_, exec_setDataOffset_valid hvalid a, onlyBufWritten_afterStore s 12 _,
      read_afterSetDataOffset s a, ?_, fun k hk => Scope.read_memWrite_singleton_ne s _ hk,
      ?_, ?_, fun b => ⟨_, exec_setDataOffset_valid hstill b, ?_⟩⟩
    · rw [byteAt, read_afterSetDataOffset, SegmentState.low_nibble_or_toHighNibble, byteAt]
    · rw [← hoffset]
      exact exec_getDataOffset_valid hstill
    · rw [← hoffset]
      exact exec_getDataOffset_eq_iff hstill a
    · rw [← hoffset, ← dataOffset_afterSetDataOffset]
      exact exec_getDataOffset_valid hvalid
  · rcases SegmentState.exec_next_cases hexec with ⟨r, -, rfl⟩ | ⟨hset, -, -, rfl⟩ | ⟨hchange, -⟩
    · exact Nat.and_self _
    · exact setter_keeps_dataOffset_bits hset s
    · exact absurd hchange (by simp [hkeep])

/-! ### The payload -/

section Payload

variable {data : List Byte} {s : State}

theorem exec_setPayload_fits (hvalid : s.valid = true) (hlength : data.length = s.plen.toNat) :
    exec (.setPayload data) s = .next (afterStore s 20 data) :=
  (withSegment_valid hvalid _).trans (if_pos hlength)

theorem exec_setPayload_mismatch (hvalid : s.valid = true) (hlength : data.length ≠ s.plen.toNat) :
    exec (.setPayload data) s = .next (s.respond (errResponse 2#4)) :=
  (withSegment_valid hvalid _).trans (if_neg hlength)

end Payload

/-- Settles O36: the length decides between the error and the copy, and the copy leaves `PLEN`, so that a
second run copies the same bytes. -/
theorem setPayloadCopiesExactlyPlenBytes : Obligations.SetPayloadCopiesExactlyPlenBytes := by
  intro data s
  refine ⟨fun hfits =>
      carries_of_encoding (.setPayload data) (Encoding.setPayload data) (decide_eq_true hfits),
    fun hvalid => withSegment_invalid hvalid _, exec_setPayload_mismatch, fun hvalid hlength => ?_⟩
  refine ⟨_, exec_setPayload_fits hvalid hlength, onlyBufWritten_afterStore s 20 data, fun k hk => ?_,
    fun a ha => read_memWrite_outside s ha, _,
    exec_setPayload_fits (by simpa using hvalid) (by simpa using hlength),
    onlyBufWritten_afterStore _ 20 data, sameBytes_afterStore_again s 20 data⟩
  exact (Scope.read_memWrite_inside s 20 hk).trans (List.getD_eq_getElem _ _ hk)

end Sys2Proof.Proofs.Mutators
end

section
/-! PROOFS. The arithmetic of `43_checksum.md` (R120 to R125): words of bytes, end-around-carry addition,
folding, and the ones-complement sum as a function of the plain sum. -/

namespace Sys2Proof.Proofs.Checksum

open Sys2Proof.Machine Sys2Proof.Safety Sys2Proof.Laws

/-! ### Word formation -/

theorem length_words (bytes : List Byte) : (words bytes).length = (bytes.length + 1) / 2 := by
  induction bytes using words.induct with
  | case1 => rfl
  | case2 => simp [words]
  | case3 b0 b1 rest ih =>
    simp only [words, List.length_cons, ih]
    omega

/-- Word `j` is made of the bytes `2j` and `2j + 1`, a missing one being zero. -/
theorem getElem_words (bytes : List Byte) {j : Nat} (h : j < (words bytes).length) :
    (words bytes)[j] = halfOfBytes (bytes.getD (2 * j) 0#8) (bytes.getD (2 * j + 1) 0#8) := by
  induction bytes using words.induct generalizing j with
  | case1 => exact nomatch h
  | case2 b =>
    obtain rfl : j = 0 := by simpa [words] using h
    rfl
  | case3 b0 b1 rest ih =>
    cases j with
    | zero => rfl
    | succ j => exact ih (Nat.lt_of_succ_lt_succ h)

/-- Settles O46: word `j` as a number. -/
theorem wordsAreBigEndianAndPaddedRight : Obligations.WordsAreBigEndianAndPaddedRight :=
  fun bytes => ⟨length_words bytes, fun _ h => by rw [getElem_words, toNat_halfOfBytes]⟩

/-! ### Ones-complement addition -/

theorem ocadd16_comm (a b : Half) : ocadd16 a b = ocadd16 b a :=
  BitVec.eq_of_toNat_eq (by rw [toNat_ocadd16, toNat_ocadd16, Nat.add_comm])

theorem ocadd16_zero (a : Half) : ocadd16 a 0#16 = a :=
  BitVec.eq_of_toNat_eq ((toNat_ocadd16 a 0#16).trans (if_pos a.isLt))

/-- A ones-complement addition reduces the plain one. -/
theorem reduces_add (a b : Half) : Reduces (a.toNat + b.toNat) (ocadd16 a b).toNat :=
  reduces_ocadd16 (reduces_self a) (reduces_self b)

/-- Settles O47: the sum with its carry added in reduces `a + b`, so it has its residue and its zero. -/
theorem onesComplementAdditionEndsAroundTheCarry :
    Obligations.OnesComplementAdditionEndsAroundTheCarry := by
  intro a b
  obtain ⟨-, hresidue, hzero⟩ := reduces_add a b
  refine ⟨toNat_ocadd16 a b, ocadd16_comm a b, ocadd16_zero a, ?_, hresidue⟩
  simpa [← BitVec.toNat_inj] using hzero

/-! ### Folding -/

/-- What one pass of the loop gives has the same reduction (R123). -/
theorem fold_pass {n : Nat} (h : 0xFFFF < n) : fold n = fold (n % 65536 + n / 65536) := by
  refine reduces_unique (reduces_fold n) ?_
  obtain ⟨hle, hresidue, hzero⟩ := reduces_fold (n % 65536 + n / 65536)
  exact ⟨hle, by omega, by omega⟩

theorem fold_of_le {n : Nat} (h : n ≤ 0xFFFF) : fold n = n :=
  reduces_unique (reduces_fold n) ⟨h, rfl, Iff.rfl⟩

/-- Settles O48: a pass keeps the residue and the zero, and two passes on 32 bits leave no carry. -/
theorem foldReducesToSixteenBits : Obligations.FoldReducesToSixteenBits := by
  refine ⟨fun n => ⟨(reduces_fold n).1, ?_⟩, fun n h => by omega⟩
  split
  case isTrue h => exact fold_pass h
  case isFalse h => exact fold_of_le (Nat.le_of_not_lt h)

/-! ### The closed form of the ones-complement sum -/

/-- The ones-complement sum is the reduction of the plain sum. -/
theorem toNat_ocsum (ws : List Half) : (ocsum ws).toNat = fold (plainSum ws) :=
  reduces_unique (reduces_ocsum ws) (reduces_fold _)

theorem ocsum_eq_of_plainSum_eq {ws vs : List Half} (h : plainSum ws = plainSum vs) :
    ocsum ws = ocsum vs :=
  BitVec.eq_of_toNat_eq (by rw [toNat_ocsum, toNat_ocsum, h])

theorem plainSum_eq_zero_iff (ws : List Half) : plainSum ws = 0 ↔ ∀ w ∈ ws, w = 0#16 := by
  simp [plainSum, List.sum_eq_zero_iff, ← BitVec.toNat_inj]

theorem ocsum_eq_zero_iff (ws : List Half) : ocsum ws = 0#16 ↔ ∀ w ∈ ws, w = 0#16 := by
  obtain ⟨-, -, hzero⟩ := reduces_ocsum ws
  rw [← plainSum_eq_zero_iff, ← hzero, ← BitVec.toNat_inj, BitVec.toNat_ofNat, Nat.zero_mod]

theorem plainSum_perm {ws vs : List Half} (h : ws.Perm vs) : plainSum ws = plainSum vs :=
  (h.map _).sum_eq

/-! ### Adder trees -/

theorem reduces_trans {n m r : Nat} (h : Reduces n m) (h' : Reduces m r) : Reduces n r := by
  obtain ⟨-, hresidue, hzero⟩ := h
  obtain ⟨hle, hresidue', hzero'⟩ := h'
  exact ⟨hle, hresidue'.trans hresidue, hzero'.trans hzero⟩

/-- A wide sum may be folded before or after an addition. -/
theorem reduces_fold_add {n m x y : Nat} (hx : Reduces n (fold x)) (hy : Reduces m (fold y)) :
    Reduces (n + m) (fold (x + y)) := by
  obtain ⟨-, hxr, hxz⟩ := reduces_fold x
  obtain ⟨-, hyr, hyz⟩ := reduces_fold y
  obtain ⟨hle, hr, hz⟩ := reduces_fold (x + y)
  obtain ⟨-, hnr, hnz⟩ := hx
  obtain ⟨-, hmr, hmz⟩ := hy
  exact ⟨hle, by omega, by omega⟩

/-- A folded value fits the input of an end-around-carry adder. -/
theorem toNat_ofNat_fold (n : Nat) : (BitVec.ofNat 16 (fold n)).toNat = fold n :=
  Nat.mod_eq_of_lt (Nat.lt_succ_of_le (reduces_fold n).1)

/-- Every node keeps the residue and the zero of the sum of the leaves below it. -/
theorem reduces_tree (t : AdderTree) : Reduces (plainSum t.leaves) (fold t.value) := by
  induction t with
  | leaf w => simpa [AdderTree.leaves, AdderTree.value] using reduces_fold w.toNat
  | wide l r ihl ihr =>
    rw [AdderTree.leaves, plainSum_append]
    exact reduces_fold_add ihl ihr
  | folded t ih => exact reduces_trans ih (reduces_fold _)
  | narrow l r ihl ihr =>
    rw [AdderTree.leaves, plainSum_append]
    rw [← toNat_ofNat_fold] at ihl ihr
    exact reduces_trans (reduces_ocadd16 ihl ihr) (reduces_fold _)

/-- Settles O49: the ones-complement sum and the folded value of every tree are the reduction of the plain
sum, which neither order nor shape changes. -/
theorem onesComplementSumIsOrderAndShapeIndependent :
    Obligations.OnesComplementSumIsOrderAndShapeIndependent := by
  refine ⟨fun ws => ⟨toNat_ocsum ws, (ocsum_eq_zero_iff ws).2, fun hne => ?_⟩,
    fun ws vs hperm => ocsum_eq_of_plainSum_eq (plainSum_perm hperm),
    fun t => reduces_unique (reduces_tree t) (reduces_ocsum _)⟩
  have hnonzero : plainSum ws ≠ 0 := by simpa [plainSum_eq_zero_iff] using hne
  obtain ⟨-, hresidue, hzero⟩ := reduces_ocsum ws
  exact ⟨by omega, hresidue⟩

end Sys2Proof.Proofs.Checksum
end

section
/-! PROOFS. What `CK` sums (`43_checksum.md` R127, R128): the bytes and words of the pseudo-header, the masked
segment, and `CK` as a function of the plain sum of the words. -/

namespace Sys2Proof.Proofs.Checksum

open Sys2Proof.Machine Sys2Proof.Safety Sys2Proof.Laws

/-! ### The pseudo-header -/

theorem bytesOfWord_wordOfBytes (a b c d : Byte) : bytesOfWord (wordOfBytes a b c d) = [a, b, c, d] := by
  have ha := a.isLt
  have hb := b.isLt
  have hc := c.isLt
  have hd := d.isLt
  simp only [bytesOfWord, List.cons.injEq, and_true, ← BitVec.toNat_inj, BitVec.extractLsb'_toNat,
    toNat_wordOfBytes, Nat.shiftRight_eq_div_pow]
  omega

/-- The two bytes of a 16-bit value as numbers. -/
theorem map_toNat_bytesOfHalf (v : Half) :
    (bytesOfHalf v).map BitVec.toNat = [v.toNat / 256, v.toNat % 256] := by
  have hv := v.isLt
  simp only [bytesOfHalf, List.map_cons, List.map_nil, BitVec.extractLsb'_toNat, List.cons.injEq, and_true,
    Nat.shiftRight_eq_div_pow]
  omega

theorem words_bytesOfHalf (v : Half) : words (bytesOfHalf v) = [v] := by
  have hjoin : halfOfBytes (v.extractLsb' 8 8) (v.extractLsb' 0 8) = v :=
    (BitVec.extractLsb'_append_extractLsb'_eq_extractLsb' rfl).trans BitVec.extractLsb'_eq_self
  exact congrArg (· :: []) hjoin

theorem words_bytesOfWord_append (a : Word) (bytes : List Byte) :
    words (bytesOfWord a ++ bytes) = words (bytesOfWord a) ++ words bytes :=
  words_append _ _ (by rw [length_bytesOfWord])

/-- The words of the pseudo-header: two of each address, the protocol and the length. -/
theorem words_pseudoHeader (a0 a1 : Word) (len : Nat) :
    words (pseudoHeader a0 a1 len) =
      words (bytesOfWord a0) ++ words (bytesOfWord a1) ++ [0x0006#16, BitVec.ofNat 16 len] := by
  have htail : words ([0#8, Config.proto] ++ bytesOfHalf (BitVec.ofNat 16 len)) =
      [0x0006#16, BitVec.ofNat 16 len] :=
    (words_append _ _ rfl).trans (congrArg (0x0006#16 :: ·) (words_bytesOfHalf _))
  rw [pseudoHeader, List.append_assoc, List.append_assoc, words_bytesOfWord_append,
    words_bytesOfWord_append, htail, List.append_assoc]

@[simp] theorem length_pseudoHeader (a0 a1 : Word) (len : Nat) : (pseudoHeader a0 a1 len).length = 12 := by
  simp [pseudoHeader]

theorem length_words_pseudoHeader (a0 a1 : Word) (len : Nat) :
    (words (pseudoHeader a0 a1 len)).length = 6 := by
  rw [length_words, length_pseudoHeader]

/-- Settles O50: the octets of each address in order, then the zero byte, the protocol and the length. -/
theorem pseudoHeaderHasTheTwelveBytes : Obligations.PseudoHeaderHasTheTwelveBytes := by
  intro a b c d e f g h len hlen
  have hfirst : bytesOfWord (a ++ b ++ c ++ d) = [a, b, c, d] := bytesOfWord_wordOfBytes a b c d
  have hsecond : bytesOfWord (e ++ f ++ g ++ h) = [e, f, g, h] := bytesOfWord_wordOfBytes e f g h
  have hfits : (BitVec.ofNat 16 len).toNat = len := Nat.mod_eq_of_lt (Nat.lt_succ_of_le hlen)
  refine ⟨?_, ?_⟩
  · simp [pseudoHeader, hfirst, hsecond, map_toNat_bytesOfHalf, hfits]
  · rw [words_pseudoHeader, hfirst, hsecond]
    rfl

/-! ### The plain sum of what `CK` sums -/

/-- The sum of the halves of an address, octet by octet. -/
theorem plainSum_words_bytesOfWord (a : Word) : plainSum (words (bytesOfWord a)) = halfSum a := by
  have ha := a.isLt
  simp only [bytesOfWord, words, plainSum_cons, plainSum_nil, toNat_halfOfBytes, halfSum,
    BitVec.extractLsb'_toNat, Nat.shiftRight_eq_div_pow]
  omega

theorem summedWords_eq (s : State) (a0 a1 : Word) :
    summedWords s a0 a1 = words (pseudoHeader a0 a1 s.len) ++ words s.maskedSegment := rfl

/-- The addresses enter the plain sum by their half sums alone. -/
theorem plainSum_summedWords (s : State) (a0 a1 : Word) :
    plainSum (summedWords s a0 a1) =
      halfSum a0 + halfSum a1 + 6 + s.len % 65536 + plainSum (words s.maskedSegment) := by
  simp only [summedWords_eq, words_pseudoHeader, plainSum_append, plainSum_words_bytesOfWord,
    plainSum_cons, plainSum_nil, BitVec.toNat_ofNat]
  omega

/-- The protocol word keeps the sum from being zero (R131). -/
theorem plainSum_summedWords_pos (s : State) (a0 a1 : Word) : 0 < plainSum (summedWords s a0 a1) := by
  rw [plainSum_summedWords]
  omega

/-- The ones-complement sum under `CK` lies in 1 to 65535, in the residue class of the plain sum. -/
theorem ocsum_summedWords (s : State) (a0 a1 : Word) :
    1 ≤ (ocsum (summedWords s a0 a1)).toNat ∧ (ocsum (summedWords s a0 a1)).toNat ≤ 65535 ∧
      (ocsum (summedWords s a0 a1)).toNat % 65535 = plainSum (summedWords s a0 a1) % 65535 := by
  have hpos := plainSum_summedWords_pos s a0 a1
  obtain ⟨hle, hresidue, hzero⟩ := reduces_ocsum (summedWords s a0 a1)
  exact ⟨by omega, hle, hresidue⟩

/-- `CK` tells two sums apart exactly when they differ modulo 65535. -/
theorem checksum_eq_iff (s t : State) (a0 a1 b0 b1 : Word) :
    s.checksum a0 a1 = t.checksum b0 b1 ↔
      plainSum (summedWords s a0 a1) % 65535 = plainSum (summedWords t b0 b1) % 65535 := by
  obtain ⟨hs, hsle, hsr⟩ := ocsum_summedWords s a0 a1
  obtain ⟨ht, htle, htr⟩ := ocsum_summedWords t b0 b1
  rw [← BitVec.toNat_inj, toNat_checksum, toNat_checksum]
  omega

/-! ### The masked segment -/

@[simp] theorem length_maskedSegment (s : State) : s.maskedSegment.length = s.len := by
  simp [State.maskedSegment]

theorem getD_maskedSegment (s : State) {k : Nat} (h : k < s.len) :
    s.maskedSegment.getD k 0#8 = s.maskedByte k := by
  simp [State.maskedSegment, h]

theorem maskedByte_field {k : Nat} (s : State) (h : k = 16 ∨ k = 17) : s.maskedByte k = 0#8 :=
  if_pos h

theorem maskedByte_of_ne {k : Nat} (s : State) (h16 : k ≠ 16) (h17 : k ≠ 17) :
    s.maskedByte k = Memory.read s.buf k :=
  if_neg (not_or_intro h16 h17)

theorem twenty_le_len (s : State) : 20 ≤ s.len := Nat.le_add_right ..

/-- Word 8 of the masked segment is the checksum field, taken as zero. -/
theorem words_maskedSegment_field (s : State) : (words s.maskedSegment)[8]? = some 0#16 := by
  have hlen := twenty_le_len s
  have hword : 8 < (words s.maskedSegment).length := by
    rw [length_words, length_maskedSegment]
    omega
  rw [List.getElem?_eq_getElem hword, getElem_words, getD_maskedSegment s (by omega),
    getD_maskedSegment s (by omega), maskedByte_field s (.inl rfl), maskedByte_field s (.inr rfl)]
  rfl

theorem maskedByte_congr {s t : State} {k : Nat}
    (h : k ≠ 16 → k ≠ 17 → Memory.read t.buf k = Memory.read s.buf k) :
    t.maskedByte k = s.maskedByte k := by
  by_cases hk : k = 16 ∨ k = 17
  · rw [maskedByte_field t hk, maskedByte_field s hk]
  · obtain ⟨h16, h17⟩ := not_or.1 hk
    rw [maskedByte_of_ne t h16 h17, maskedByte_of_ne s h16 h17, h h16 h17]

/-- Two segments of one length that agree outside the checksum field are masked to the same bytes. -/
theorem maskedSegment_congr {s t : State} (hplen : t.plen = s.plen)
    (hbytes : ∀ k, k ≠ 16 → k ≠ 17 → Memory.read t.buf k = Memory.read s.buf k) :
    t.maskedSegment = s.maskedSegment := by
  have hmasked : t.maskedByte = s.maskedByte := funext fun k => maskedByte_congr (hbytes k)
  rw [State.maskedSegment, State.maskedSegment, State.len, State.len, hplen, hmasked]

/-- The bytes of the stored field do not enter `CK`. -/
theorem checksum_congr {s t : State} (hplen : t.plen = s.plen)
    (hbytes : ∀ k, k ≠ 16 → k ≠ 17 → Memory.read t.buf k = Memory.read s.buf k) (a0 a1 : Word) :
    t.checksum a0 a1 = s.checksum a0 a1 := by
  rw [State.checksum, State.checksum, State.checksumSum, State.checksumSum,
    maskedSegment_congr hplen hbytes, State.len, State.len, hplen]

/-- Settles O51: the pseudo-header has an even number of bytes, six words before the eighth of the segment,
and the mask hides the field. -/
theorem checksumMasksTheStoredField : Obligations.ChecksumMasksTheStoredField := by
  intro s a0 a1
  refine ⟨rfl, ?_, words_append _ _ (by rw [length_pseudoHeader]), ?_,
    fun t hplen hbytes => checksum_congr hplen hbytes a0 a1⟩
  · rw [toNat_checksum, toNat_ocsum]
  · rw [summedWords_eq, List.getElem?_append_right (by rw [length_words_pseudoHeader]; decide),
      length_words_pseudoHeader]
    exact words_maskedSegment_field s

/-! ### One changed byte -/

/-- Two sums that differ at one index differ by its terms. -/
theorem sum_range_one_changed {n k : Nat} {f g : Nat → Nat} (hk : k < n)
    (hsame : ∀ j, j < n → j ≠ k → f j = g j) :
    ((List.range n).map f).sum + g k = ((List.range n).map g).sum + f k := by
  have hmem := Finset.mem_range.2 hk
  have herase : ∑ j ∈ (Finset.range n).erase k, f j = ∑ j ∈ (Finset.range n).erase k, g j :=
    Finset.sum_congr rfl fun j hj =>
      hsame j (Finset.mem_range.1 (Finset.mem_of_mem_erase hj)) (Finset.ne_of_mem_erase hj)
  show ∑ j ∈ Finset.range n, f j + g k = ∑ j ∈ Finset.range n, g j + f k
  rw [← Finset.sum_erase_add _ f hmem, ← Finset.sum_erase_add _ g hmem, herase]
  omega

/-- One changed byte changes the plain sum of the words by at most 255 * 256, so modulo 65535 (R133). -/
theorem plainSum_words_one_changed {p q : List Byte} (hlength : q.length = p.length) {k : Nat}
    (hk : k < p.length) (hne : q.getD k 0#8 ≠ p.getD k 0#8)
    (hsame : ∀ j, j < p.length → j ≠ k → q.getD j 0#8 = p.getD j 0#8) :
    plainSum (words q) % 65535 ≠ plainSum (words p) % 65535 := by
  have hsum := sum_range_one_changed hk
    (f := fun j => (if j % 2 = 0 then 256 else 1) * (q.getD j 0#8).toNat)
    (g := fun j => (if j % 2 = 0 then 256 else 1) * (p.getD j 0#8).toNat)
    fun j hlt hj => by rw [hsame j hlt hj]
  have hne' : (q.getD k 0#8).toNat ≠ (p.getD k 0#8).toNat := mt BitVec.eq_of_toNat_eq hne
  have hq := (q.getD k 0#8).isLt
  have hp := (p.getD k 0#8).isLt
  rw [plainSum_words, plainSum_words, hlength]
  split at hsum <;> omega

end Sys2Proof.Proofs.Checksum
end

section
/-! PROOFS. The operations of the checksum unit and their consequences (`43_checksum.md` R129 to R136): what
each answers, and which segments and addresses `IS_CORRECT_CHECKSUM` tells apart. -/

namespace Sys2Proof.Proofs.Checksum

open Sys2Proof.Machine Sys2Proof.Safety Sys2Proof.Laws

/-! ### What the two operations answer -/

theorem storedChecksum_eq (s : State) : storedChecksum s = (s.memRead2 16).toNat :=
  (toNat_memRead2 s 16).symm

theorem checksum_eq_memRead2_iff (s : State) (a0 a1 : Word) :
    s.checksum a0 a1 = s.memRead2 16 ↔ (s.checksum a0 a1).toNat = storedChecksum s := by
  rw [storedChecksum_eq, BitVec.toNat_inj]

section Held

variable {s : State} (hvalid : s.valid = true) (a0 a1 : Word)
include hvalid

theorem exec_isCorrectChecksum_valid :
    exec (.isCorrectChecksum a0 a1) s =
      .next (s.respond (okResponse (boolRes (s.checksum a0 a1 = s.memRead2 16)) [])) :=
  withSegment_valid hvalid _

/-- A segment validates exactly when its stored field is `CK` (R129). -/
theorem validates_iff : Validates s a0 a1 ↔ (s.checksum a0 a1).toNat = storedChecksum s := by
  rw [Validates, exec_isCorrectChecksum_valid hvalid, next_respond_inj, ← checksum_eq_memRead2_iff]
  by_cases h : s.checksum a0 a1 = s.memRead2 16 <;> simp [h, boolRes, okResponse]

/-- A segment mismatches exactly when its stored field is not `CK` (R129). -/
theorem mismatches_iff : Mismatches s a0 a1 ↔ (s.checksum a0 a1).toNat ≠ storedChecksum s := by
  rw [Mismatches, exec_isCorrectChecksum_valid hvalid, next_respond_inj, ne_eq,
    ← checksum_eq_memRead2_iff]
  by_cases h : s.checksum a0 a1 = s.memRead2 16 <;> simp [h, boolRes, okResponse]

theorem exec_csumCompute_stale (hstale : storedChecksum s ≠ 0) :
    exec (.csumCompute a0 a1) s = .next (s.respond (errResponse 6#4)) := by
  rw [storedChecksum_eq] at hstale
  exact (withSegment_valid hvalid _).trans (if_neg (hstale <| congrArg BitVec.toNat ·))

theorem exec_csumCompute_clear (hclear : storedChecksum s = 0) :
    exec (.csumCompute a0 a1) s = .next (s.respond (okResponse (zext32 (s.checksum a0 a1)) [])) := by
  rw [storedChecksum_eq] at hclear
  exact (withSegment_valid hvalid _).trans (if_pos (BitVec.eq_of_toNat_eq hclear))

end Held

/-- Settles O52: the answer is the comparison, and the segment decides whether it is made. -/
theorem isCorrectChecksumComparesWithTheStoredField :
    Obligations.IsCorrectChecksumComparesWithTheStoredField := fun _ a0 a1 =>
  ⟨carries_of_encoding (.isCorrectChecksum a0 a1) (Encoding.isCorrectChecksum a0 a1) rfl,
    fun hvalid => (validates_iff hvalid a0 a1).2, fun hvalid => (mismatches_iff hvalid a0 a1).2,
    fun hvalid => withSegment_invalid hvalid _⟩

/-- Settles O53: the segment is looked for first, then the stored field is. -/
theorem csumComputeRefusesAStaleField : Obligations.CsumComputeRefusesAStaleField := by
  refine fun s a0 a1 =>
    ⟨carries_of_encoding (.csumCompute a0 a1) (Encoding.csumCompute a0 a1) rfl,
      fun hvalid => withSegment_invalid hvalid _,
      fun hvalid => exec_csumCompute_stale hvalid a0 a1, fun hvalid hclear => ?_⟩
  rw [exec_csumCompute_clear hvalid a0 a1 hclear, Accessors.zext32_eq_ofNat rfl]

/-! ### The range of `CK` and the order of the addresses -/

/-- The complement of a sum that is not zero is below 65535 (R131). -/
theorem toNat_checksum_lt (s : State) (a0 a1 : Word) : (s.checksum a0 a1).toNat < 65535 := by
  obtain ⟨hpos, -, -⟩ := ocsum_summedWords s a0 a1
  rw [toNat_checksum]
  omega

theorem checksum_eq_zero_iff (s : State) (a0 a1 : Word) :
    s.checksum a0 a1 = 0#16 ↔ 65535 ∣ plainSum (summedWords s a0 a1) := by
  obtain ⟨hpos, hle, hresidue⟩ := ocsum_summedWords s a0 a1
  rw [← BitVec.toNat_inj, toNat_checksum, BitVec.toNat_ofNat]
  omega

/-- A stored field of all ones is never `CK` (R131). -/
theorem mismatches_of_stored_all_ones {s : State} (hvalid : s.valid = true)
    (hstored : storedChecksum s = 0xFFFF) (a0 a1 : Word) : Mismatches s a0 a1 :=
  (mismatches_iff hvalid a0 a1).2 (hstored ▸ (toNat_checksum_lt s a0 a1).ne)

/-- Settles O54: the protocol word keeps the sum under `CK` from being zero. -/
theorem checksumIsNeverAllOnes : Obligations.ChecksumIsNeverAllOnes := fun s a0 a1 =>
  ⟨fun h => (toNat_checksum_lt s a0 a1).ne (congrArg BitVec.toNat h),
    fun hvalid hstored => mismatches_of_stored_all_ones hvalid hstored a0 a1,
    checksum_eq_zero_iff s a0 a1⟩

theorem checksum_comm (s : State) (a0 a1 : Word) : s.checksum a0 a1 = s.checksum a1 a0 := by
  rw [checksum_eq_iff, plainSum_summedWords, plainSum_summedWords, Nat.add_comm (halfSum a0)]

/-- Settles O55: the operands enter both operations through `CK` alone, which is symmetric in them. -/
theorem addressOperandsCommute : Obligations.AddressOperandsCommute := by
  intro s a0 a1
  refine ⟨checksum_comm s a0 a1, ?_, ?_⟩
  · simp only [exec, execIsCorrectChecksum, checksum_comm s a0 a1]
  · simp only [exec, execCsumCompute, checksum_comm s a0 a1]

/-! ### One changed byte of the segment -/

/-- A changed byte outside the checksum field changes `CK`. -/
theorem checksum_ne_of_one_changed {s t : State} {k : Nat} (hplen : t.plen = s.plen) (hk : k < s.len)
    (h16 : k ≠ 16) (h17 : k ≠ 17) (hne : Memory.read t.buf k ≠ Memory.read s.buf k)
    (hsame : ∀ a, a ≠ k → Memory.read t.buf a = Memory.read s.buf a) (a0 a1 : Word) :
    t.checksum a0 a1 ≠ s.checksum a0 a1 := by
  have hlen : t.len = s.len := by rw [State.len, State.len, hplen]
  have hresidue : plainSum (words t.maskedSegment) % 65535 ≠ plainSum (words s.maskedSegment) % 65535 := by
    refine plainSum_words_one_changed (k := k) (by simp [hlen]) (by simpa using hk) ?_ fun j hj hjk => ?_
    · rwa [getD_maskedSegment t (hlen ▸ hk), getD_maskedSegment s hk, maskedByte_of_ne t h16 h17,
        maskedByte_of_ne s h16 h17]
    · rw [length_maskedSegment] at hj
      rw [getD_maskedSegment t (hlen ▸ hj), getD_maskedSegment s hj,
        maskedByte_congr fun _ _ => hsame j hjk]
  rw [ne_eq, checksum_eq_iff, plainSum_summedWords, plainSum_summedWords, hlen]
  omega

/-- A changed byte of the checksum field changes the stored number. -/
theorem storedChecksum_ne_of_one_changed {s t : State} {k : Nat} (hfield : k = 16 ∨ k = 17)
    (hne : Memory.read t.buf k ≠ Memory.read s.buf k)
    (hsame : ∀ a, a ≠ k → Memory.read t.buf a = Memory.read s.buf a) :
    storedChecksum t ≠ storedChecksum s := by
  have hne' : byteAt t k ≠ byteAt s k := mt BitVec.eq_of_toNat_eq hne
  have hsame' : ∀ a, a ≠ k → byteAt t a = byteAt s a := fun a ha => congrArg BitVec.toNat (hsame a ha)
  unfold storedChecksum
  rcases hfield with rfl | rfl
  · have := hsame' 17 (by decide)
    omega
  · have := hsame' 16 (by decide)
    omega

/-- Settles O56: a byte of the field changes what is stored and not `CK`; any other changes `CK` and not what
is stored. -/
theorem oneChangedByteIsDetected : Obligations.OneChangedByteIsDetected := by
  intro s t a0 a1 k hvalidates hvalid hvalid' hplen hk hne hsame
  rw [validates_iff hvalid] at hvalidates
  rw [mismatches_iff hvalid']
  by_cases hfield : k = 16 ∨ k = 17
  · have hck := checksum_congr hplen (fun a h16 h17 => hsame a (by omega)) a0 a1
    rw [hck, hvalidates]
    exact (storedChecksum_ne_of_one_changed hfield hne hsame).symm
  · obtain ⟨h16, h17⟩ := not_or.1 hfield
    have hck := checksum_ne_of_one_changed hplen hk h16 h17 hne hsame a0 a1
    have hstored : storedChecksum t = storedChecksum s := by
      simp [storedChecksum, byteAt, hsame 16 (Ne.symm h16), hsame 17 (Ne.symm h17)]
    rw [hstored, ← hvalidates]
    exact mt BitVec.eq_of_toNat_eq hck

/-! ### SEAL -/

/-- SET_CHECKSUM, ended in a success: bytes 16 and 17 are the operand's. -/
def afterSetChecksum (s : State) (c : Half) : State := Mutators.afterStore s 16 (bytesOfHalf c)

section SetChecksum

variable (s : State) (c : Half)

@[simp] theorem afterSetChecksum_valid : (afterSetChecksum s c).valid = s.valid := rfl

theorem exec_setChecksum_valid {s : State} (hvalid : s.valid = true) :
    exec (.setChecksum c) s = .next (afterSetChecksum s c) :=
  withSegment_valid hvalid _

theorem onlyBufWritten_afterSetChecksum : OnlyBufWritten s (afterSetChecksum s c) :=
  Mutators.onlyBufWritten_afterStore s 16 _

theorem storedChecksum_afterSetChecksum : storedChecksum (afterSetChecksum s c) = c.toNat :=
  (storedChecksum_eq _).trans (congrArg BitVec.toNat (memRead2_memWrite2 s 16 c))

/-- `CK` does not read the field SET_CHECKSUM writes. -/
theorem checksum_afterSetChecksum (a0 a1 : Word) :
    (afterSetChecksum s c).checksum a0 a1 = s.checksum a0 a1 :=
  checksum_congr (s := s) (t := afterSetChecksum s c) rfl
    (fun _ _ _ => Scope.read_memWrite2_outside s c (o := 16) (by omega)) a0 a1

/-- A segment whose field is set to `CK` validates. -/
theorem validates_afterSetChecksum {s : State} {c : Half} {a0 a1 : Word} (hvalid : s.valid = true)
    (hc : s.checksum a0 a1 = c) : Validates (afterSetChecksum s c) a0 a1 := by
  rw [validates_iff ((afterSetChecksum_valid s c).trans hvalid), checksum_afterSetChecksum, hc,
    storedChecksum_afterSetChecksum]

end SetChecksum

theorem checksum_respond (s : State) (r : Response) (a0 a1 : Word) :
    (s.respond r).checksum a0 a1 = s.checksum a0 a1 := rfl

/-- Validation depends on the segment and its bytes alone. -/
theorem validates_congr {v w : State} {a0 a1 : Word} (hvalid : v.valid = true) (hvalid' : w.valid = true)
    (hplen : w.plen = v.plen) (hsame : SameBytes v w) (h : Validates v a0 a1) : Validates w a0 a1 := by
  rw [validates_iff hvalid] at h
  rw [validates_iff hvalid', checksum_congr hplen (fun k _ _ => hsame k), h]
  simp only [storedChecksum, byteAt, hsame _]

/-- Settles O57: the field is cleared, `CK` is computed with the field masked, and storing it leaves `CK` as
computed. -/
theorem sealMakesTheChecksumCorrect : Obligations.SealMakesTheChecksumCorrect := by
  intro s a0 a1 hvalid
  have hcleared : (afterSetChecksum s 0#16).valid = true := (afterSetChecksum_valid s _).trans hvalid
  have hcompute := exec_csumCompute_clear hcleared a0 a1 (storedChecksum_afterSetChecksum s 0#16)
  rw [checksum_afterSetChecksum] at hcompute
  obtain ⟨u, hu⟩ : ∃ u, u = (afterSetChecksum s 0#16).respond
    (okResponse (zext32 (s.checksum a0 a1)) []) := ⟨_, rfl⟩
  have hvalid_u : u.valid = true := hu ▸ hcleared
  have hck_u : u.checksum a0 a1 = s.checksum a0 a1 := by
    rw [hu, checksum_respond, checksum_afterSetChecksum]
  have hsealed := validates_afterSetChecksum hvalid_u hck_u
  exact ⟨s.checksum a0 a1, afterSetChecksum s 0#16, u, _, exec_setChecksum_valid _ hvalid,
    onlyBufWritten_afterSetChecksum s _, hu ▸ hcompute, hu, exec_setChecksum_valid _ hvalid_u,
    onlyBufWritten_afterSetChecksum u _, hsealed,
    fun w hw hplen hsame => validates_congr (v := afterSetChecksum u _) hvalid_u hw hplen hsame hsealed⟩

/-! ### Another remote address -/

/-- Two remote addresses give one `CK` exactly when their half sums agree modulo 65535. -/
theorem checksum_remote_eq_iff (s : State) (a0 a1 b1 : Word) :
    s.checksum a0 b1 = s.checksum a0 a1 ↔ halfSum a1 % 65535 = halfSum b1 % 65535 := by
  rw [checksum_eq_iff, plainSum_summedWords, plainSum_summedWords]
  omega

/-- Octet `k` of an address, counted from the least significant, as a byte of it. -/
theorem getD_bytesOfWord_eq_octet (a : Word) {k : Nat} (h : k < 4) :
    (bytesOfWord a).getD (3 - k) 0#8 = a.extractLsb' (8 * k) 8 := by
  rw [Scope.getD_bytesOfWord_eq_slice a (by omega), show 4 - (3 - k) - 1 = k by omega]

/-- Addresses that differ in one octet differ in their half sums: an address is summed as the bytes of a
segment are. -/
theorem halfSum_ne_of_one_octet {a b : Word} {k : Nat} (hk : k < 4)
    (hne : a.extractLsb' (8 * k) 8 ≠ b.extractLsb' (8 * k) 8)
    (hsame : ∀ j, j < 4 → j ≠ k → a.extractLsb' (8 * j) 8 = b.extractLsb' (8 * j) 8) :
    halfSum a % 65535 ≠ halfSum b % 65535 := by
  rw [← plainSum_words_bytesOfWord, ← plainSum_words_bytesOfWord]
  refine plainSum_words_one_changed (k := 3 - k) (by simp) (by simp; omega) ?_ fun j hj hjk => ?_
  · rwa [getD_bytesOfWord_eq_octet a hk, getD_bytesOfWord_eq_octet b hk]
  · obtain ⟨i, hi, rfl⟩ : ∃ i, i < 4 ∧ j = 3 - i := ⟨3 - j, by omega, by simp at hj; omega⟩
    rw [getD_bytesOfWord_eq_octet a hi, getD_bytesOfWord_eq_octet b hi, hsame i hi (by omega)]

/-- Settles O58: the stored field is `CK` for `a1`, so it is `CK` for `b1` exactly when both are one. -/
theorem addressSensitivityIsTheHalfSum : Obligations.AddressSensitivityIsTheHalfSum := by
  intro s a0 a1 b1 hvalid hvalidates
  have hstored := (validates_iff hvalid a0 a1).1 hvalidates
  have hmismatch : Mismatches s a0 b1 ↔ halfSum a1 % 65535 ≠ halfSum b1 % 65535 := by
    rw [mismatches_iff hvalid, ← hstored, ne_eq, BitVec.toNat_inj, checksum_remote_eq_iff]
  refine ⟨hmismatch, fun h => ?_, fun k hk hne hsame =>
    hmismatch.2 (halfSum_ne_of_one_octet hk hne hsame)⟩
  rw [mismatches_iff hvalid, not_not] at h
  exact (validates_iff hvalid a0 b1).2 h

/-! ### The other way of verifying -/

/-- Settles O59: `T + c` reaches all ones without a carry when `c` is the complement of `T`, and with one only
when both are all ones. -/
theorem sumToAllOnesTestIsNotThisBlocks : Obligations.SumToAllOnesTestIsNotThisBlocks := by
  intro s a0 a1 c hvalid hstored
  refine ⟨?_, fun _ hc => mismatches_of_stored_all_ones hvalid (by rw [hstored, hc]; rfl) a0 a1⟩
  obtain ⟨hpos, hle, -⟩ := ocsum_summedWords s a0 a1
  have hc := c.isLt
  rw [validates_iff hvalid, hstored, toNat_checksum]
  simp only [← BitVec.toNat_inj, toNat_ocadd16, BitVec.toNat_ofNat]
  split <;> omega

end Sys2Proof.Proofs.Checksum
end

section
/-! PROOFS. The statements of `60_exceptions.md`: the checks made before an operation's effect and the code
that answers for each (R143, R148, R159), and what an error leaves unchanged (R149). -/

namespace Sys2Proof.Proofs.Exceptions

open Sys2Proof.Machine Sys2Proof.Safety Sys2Proof.Laws Sys2Proof.Proofs.SegmentState

/-! ### The life of a segment -/

/-- Settles O16: an operation that ends no segment answers, or writes one run of bytes of `BUF`. -/
theorem idleAndMostOperationsKeepTheSegment : Obligations.IdleAndMostOperationsKeepTheSegment := by
  refine ⟨fun s hport => step_idle hport, fun i s t hexec hkeep => ?_⟩
  rcases exec_next_cases hexec with ⟨r, -, rfl⟩ | ⟨-, -, -, rfl⟩ | ⟨hchange, -⟩
  · exact ⟨rfl, rfl⟩
  · exact ⟨rfl, rfl⟩
  · exact absurd hchange (by simp [hkeep])

/-! ### The code an operation answers with -/

/-- The code decided by the second and third check of R148: the segment, then the own condition of `i`. -/
def checkedCode (i : Instr) (s : State) : BitVec 4 :=
  if needsSegment i = true ∧ s.valid = false then 3#4 else ownCheck i s

/-- The outcome `o`, from the state `s`, answers `code`: it is the error of that code raised in `s` itself, or
`code` is 0 and it is a success that adds its response to those of `s`. -/
def AnswersCode (s : State) (code : BitVec 4) (o : Host.Outcome State Fault Refusal) : Prop :=
  (∃ e : Error, e.code = code ∧ o = raise s e) ∨
    (code = 0#4 ∧ ∃ (u : State) (res : Word) (dout : List Byte),
      o = returnOk u res dout ∧ u.rspPort = s.rspPort)

section Answers

variable {s : State} {code : BitVec 4} {o : Host.Outcome State Fault Refusal}

theorem answersCode_raise {e : Error} (hcode : code = e.code) (ho : o = raise s e) : AnswersCode s code o :=
  .inl ⟨e, hcode.symm, ho⟩

theorem answersCode_ok {u : State} {res : Word} {dout : List Byte} (hcode : code = 0#4)
    (ho : o = returnOk u res dout) (hu : u.rspPort = s.rspPort) : AnswersCode s code o :=
  .inr ⟨hcode, u, res, dout, ho, hu⟩

/-- The response added carries the code; where that is an error's, the response is all that was added. -/
theorem AnswersCode.response {t : State} {r : Response} (h : AnswersCode s code o) (ho : o = .next t)
    (hrsp : t.rspPort = s.rspPort ++ [r]) :
    r.err = code ∧ (r.err ≠ 0#4 → r = errResponse r.err ∧ t = s.respond r) := by
  rcases h with ⟨e, rfl, hraise⟩ | ⟨rfl, u, res, dout, hok, hu⟩
  · cases hraise.symm.trans ho
    cases respond_inj hrsp
    exact ⟨rfl, fun _ => ⟨rfl, rfl⟩⟩
  · cases hok.symm.trans ho
    rw [respond_rspPort, hu] at hrsp
    cases respond_inj hrsp
    exact ⟨rfl, fun hne => absurd rfl hne⟩

end Answers

theorem ownCheck_csumCompute (a0 a1 : Word) (s : State) :
    ownCheck (.csumCompute a0 a1) s = if storedChecksum s = 0 then 0#4 else 6#4 :=
  if_congr (by unfold storedChecksum; omega) rfl rfl

/-- Past the check for a segment, an operation answers the code of its own condition. -/
theorem answersCode_ownCheck {i : Instr} {s : State} (hheld : needsSegment i = true → s.valid = true) :
    AnswersCode s (ownCheck i s) (exec i s) := by
  cases i with
  | new n =>
    by_cases hexceeds : s.cfg.payloadMax.val < n.toNat
    · exact answersCode_raise (e := .capacityExceeded) (if_pos hexceeds) (exec_new_exceeds hexceeds)
    · exact answersCode_ok (if_neg hexceeds) (exec_new_fits (Nat.not_lt.1 hexceeds)) rfl
  | wrap data =>
    by_cases hshort : data.length < 20
    · exact answersCode_raise (e := .bufferTooShort) (if_pos hshort) (exec_wrap_short hshort)
    have hmin := Nat.not_lt.1 hshort
    by_cases hexceeds : 20 + s.cfg.payloadMax.val < data.length
    · exact answersCode_raise (e := .capacityExceeded) ((if_neg hshort).trans (if_pos hexceeds))
        (exec_wrap_exceeds hmin hexceeds)
    · exact answersCode_ok ((if_neg hshort).trans (if_neg hexceeds))
        (exec_wrap_fits hmin (Nat.not_lt.1 hexceeds)) rfl
  | setPayload data =>
    by_cases hlength : data.length = s.plen.toNat
    · exact answersCode_ok (if_pos hlength) (Mutators.exec_setPayload_fits (hheld rfl) hlength) rfl
    · exact answersCode_raise (e := .payloadLengthMismatch) (if_neg hlength)
        (Mutators.exec_setPayload_mismatch (hheld rfl) hlength)
  | csumCompute a0 a1 =>
    rw [ownCheck_csumCompute]
    by_cases hclear : storedChecksum s = 0
    · exact answersCode_ok (if_pos hclear) (Checksum.exec_csumCompute_clear (hheld rfl) a0 a1 hclear) rfl
    · exact answersCode_raise (e := .staleChecksum) (if_neg hclear)
        (Checksum.exec_csumCompute_stale (hheld rfl) a0 a1 hclear)
  | discard | status => exact answersCode_ok rfl rfl rfl
  | _ => exact answersCode_ok rfl (withSegment_valid (hheld rfl) _) rfl

/-- Every operation answers the code its checks decide, whatever the state (R148). -/
theorem answersCode_exec (i : Instr) (s : State) : AnswersCode s (checkedCode i s) (exec i s) := by
  unfold checkedCode
  split_ifs with hmissing
  · obtain ⟨hneeds, hvalid⟩ := hmissing
    exact answersCode_raise (e := .noSegment) rfl (exec_needsSegment_invalid hneeds hvalid)
  · exact answersCode_ownCheck fun hneeds => by simpa [hneeds] using hmissing

theorem err_eq_checkedCode {i : Instr} {s t : State} {r : Response} (hexec : exec i s = .next t)
    (hrsp : t.rspPort = s.rspPort ++ [r]) : r.err = checkedCode i s :=
  ((answersCode_exec i s).response hexec hrsp).1

/-! ### Which codes an operation can answer with -/

/-- An operation's own condition raises a code of its row of R159, and never the lack of a segment. -/
theorem ownCheck_allowed (i : Instr) (s : State) : ownCheck i s ∈ possibleCodes i ∧ ownCheck i s ≠ 3#4 := by
  cases i with
  | new | setPayload | csumCompute => simp only [ownCheck]; split <;> simp [possibleCodes]
  | wrap => simp only [ownCheck]; split_ifs <;> simp [possibleCodes]
  | _ => exact ⟨List.mem_cons_self, nofun⟩

theorem noSegment_mem_possibleCodes {i : Instr} (hneeds : needsSegment i = true) :
    3#4 ∈ possibleCodes i := by
  cases i with
  | new | wrap | discard | status => cases hneeds
  | _ => exact .tail _ (.head _)

/-- Settles O42: each check's code is in the operation's row of R159. -/
theorem eachOperationRaisesOnlyItsErrors : Obligations.EachOperationRaisesOnlyItsErrors := by
  intro i s t r hexec hrsp
  obtain ⟨⟨hbound, -⟩, -⟩ := CommandEncoding.responsesHaveTheShapeOfTheRecord i s t r hexec hrsp
  refine ⟨?_, hbound⟩
  rw [err_eq_checkedCode hexec hrsp, checkedCode]
  split_ifs with hmissing
  · exact noSegment_mem_possibleCodes hmissing.1
  · exact (ownCheck_allowed i s).1

/-- Settles O39: `NoSegment` is the code of the check for a segment and of no other. -/
theorem noSegmentIsRaisedExactlyWithoutASegment :
    Obligations.NoSegmentIsRaisedExactlyWithoutASegment := by
  refine fun i s => ⟨exec_needsSegment_invalid, fun t r hexec hrsp herr => ?_⟩
  rw [err_eq_checkedCode hexec hrsp, checkedCode] at herr
  by_contra hheld
  exact (ownCheck_allowed i s).2 ((if_neg hheld).symm.trans herr)

/-! ### The step that takes a command -/

/-- A command record is answered from the state that holds the other pending events: the first check of R148
decides, or an operation's checks do. -/
theorem answersCode_step {s : State} {c : Command} {rest : List PortEvent}
    (hport : s.cmdPort = .command c :: rest) (hfits : DataFits c.data) :
    ∃ code, AnswersCode { s with cmdPort := rest } code (step s) := by
  rcases MemoryAccess.serves_of_dataFits hfits with ⟨i, hserves⟩ | hserves <;> rw [hserves s rest hport]
  · exact ⟨_, answersCode_exec i _⟩
  · exact ⟨_, answersCode_raise rfl rfl⟩

/-- Settles O40: an error is raised in the state the command was taken from. -/
theorem anErrorChangesNoState : Obligations.AnErrorChangesNoState := by
  intro s t c rest r hport hstep hrsp herr
  by_cases hfits : DataFits c.data
  · obtain ⟨code, hanswers⟩ := answersCode_step hport hfits
    exact (hanswers.response hstep hrsp).2 herr
  · have hstop := (CommandEncoding.onlyAnOversizedRecordStopsTheModel s).1 c rest hport hfits
    cases hstop.symm.trans hstep

/-- Settles O41: an ill-formed command is rejected before any state is read, and the checks of an operation
do not read the command port. -/
theorem checksAreMadeInTheFixedOrder : Obligations.ChecksAreMadeInTheFixedOrder := by
  intro s c rest hport hfits
  obtain ⟨t, r, hstep, -, hrsp⟩ := MemoryAccess.step_answers_command hport hfits
  refine ⟨t, r, hstep, hrsp, fun hill => ?_, fun i hdecode => ?_⟩
  · have hraise := (CommandEncoding.illFormedCommandRaisesIllegalCommand s c rest hport hfits).1 hill
    exact ((answersCode_raise (e := .illegalCommand) rfl hraise).response hstep hrsp).1
  · have hexec := CommandEncoding.stepRunsTheDecodedCommand s c rest i hport hdecode
    exact err_eq_checkedCode (s := { s with cmdPort := rest }) (hexec.symm.trans hstep) hrsp

end Sys2Proof.Proofs.Exceptions
end

section
/-! PROOFS. Reset: the state it starts from, and what it does to a block that is idle or executing a command
(R160 to R162). -/

namespace Sys2Proof.Proofs.ResetAndHazards

open Sys2Proof.Machine Sys2Proof.Proofs.SegmentState

/-- Settles O14: the fields of the reset state are these values. -/
theorem resetHoldsNoSegment : Obligations.ResetHoldsNoSegment :=
  ⟨rfl, rfl, rfl, rfl⟩

/-- The reset input is what both reset events are served with, so the command a reset interrupts has no
part in the outcome (R161). -/
theorem serves_resetEvent {e : PortEvent} (h : e = .reset ∨ ∃ c, e = .resetDuring c) :
    Serves e resetInput := by
  rcases h with rfl | ⟨c, rfl⟩
  · exact serves_reset
  · exact serves_resetDuring c

/-- Reset leaves the segment and the responses as in the reset state, and the parameter and the pending
events as they were (R160, R162). -/
theorem resetInput_result (s : State) :
    ∃ t : State, resetInput s = .next t ∧
      t.valid = State.reset.valid ∧ t.plen = State.reset.plen ∧ t.rspPort = State.reset.rspPort ∧
      t.cfg = s.cfg ∧ t.cmdPort = s.cmdPort :=
  ⟨{ s.holdNone with rspPort := [] }, rfl, rfl, rfl, rfl, rfl, rfl⟩

/-- Settles O15: a step that takes a reset event is the reset input, applied with the later events still
pending. -/
theorem resetAbandonsTheCommand : Obligations.ResetAbandonsTheCommand := by
  intro s e rest hport hreset
  rw [serves_resetEvent hreset s rest hport]
  exact resetInput_result { s with cmdPort := rest }

end Sys2Proof.Proofs.ResetAndHazards
end
